-- ==== Sys2Proof/Word.lean ====
section
/-!
DEFINITION. Words and identifiers of the BC2408: bytes, lines, line addresses and the numbers by which
agents, slices, tags, records and handles are named (00_scope.md, "Numbers and units"; R1, R23).
-/

namespace Sys2Proof

/-- A byte (00_scope.md, "A byte is 8 bits"). -/
abbrev Byte := BitVec 8

/-- The 64 bytes of one line, byte 0 of the line first (00_scope.md; 12.1). -/
abbrev LineData := Vector Byte 64

/-- A 28-bit line address `la`: bits 33:6 of a byte address (R1). -/
abbrev LineAddr := BitVec 28

/-- An agent number 0 to 7; agent n is attached to LUn (00_scope.md). -/
abbrev Agent := Fin 8

/-- A coherence slice 0 to 3 (00_scope.md). -/
abbrev SliceId := Fin 4

/-- A tag 0 to 15 of one agent's request or return (R130). -/
abbrev Tag := Fin 16

/-- The index 0 to 31 of a transaction record within its slice (R23). -/
abbrev RecIdx := Fin 32

/-- A handle 0 to 127: the number of a transaction record across the whole part (R23). -/
abbrev Handle := Fin 128

/-- The number 0 to 7 of a way within its set (R5). -/
abbrev WayIdx := Fin 8

/-- A byte mask of 64 flags: flag 8k + j is bit j of mask byte k and selects that line byte (R100, 12.1). -/
abbrev ByteMask := BitVec 64

/-- A set of agents, bit n for agent n, as the register window shows sharer sets (12.4, offset 0x18). -/
abbrev AgentSet := BitVec 8

/-- A set of slices, bit s for slice s (R150, R186). -/
abbrev SliceSet := BitVec 4

end Sys2Proof
end

