-- ==== Sys2Proof/Config.lean ====
section
/-!
DEFINITION. What the manual fixes as quantities, and the free values: constants with no body that stand for
what the manual leaves open, so that no proof can see a value of theirs.
-/

namespace Sys2Proof.Config

/-- Lines in the 8 GiB pool, selected by MSIZE low (R1). -/
def lines8GiB : Nat := 134217728

/-- Lines in the 16 GiB pool, selected by MSIZE high (R1). -/
def lines16GiB : Nat := 268435456

/-- Places of the line wait queue of a slice (R31). -/
def waitQueuePlaces : Nat := 48

/-- Places of the memory request queue (R174). -/
def memoryQueuePlaces : Nat := 64

/-- Tag places of the outbound response queue (R136, R146). -/
def tagPlaces : Nat := 16

/-- Writes of accepted returns that may wait in a submission list before ReturnDirty is held back (R173). -/
def returnWriteLimit : Nat := 16

/-- Sets of a slice, and the sets left of a joining job (R5, R118). -/
def setsPerSlice : Nat := 2048

/-- Consecutive data-check failures that fence an agent (R145). -/
def dataCheckLimit : Nat := 16

/-- FREE VALUE (log 4). Which FREE record of slice `sid` is handed out at the `k`-th choice among several: R32, R37
and R38 say "a FREE record" and do not say which. Only the remainder by the number of FREE records is used. -/
opaque recordChoice : SliceId → Nat → Nat

/-- FREE VALUE (log 6). The bytes that a line of the DRAM holds after the `k`-th power-on reset until the clear or a
write writes it: R185, "Unknown until the clear writes them". -/
opaque powerOnLine : Nat → Nat → LineData

/-- FREE VALUE (log 6). Whether such a line carries a poison mark (R185). -/
opaque powerOnMark : Nat → Nat → Bool

/-- FREE VALUE (log 5). How many lines the start-up memory clear writes in the time unit that begins at `now`:
the manual gives the clear no speed (R183). -/
opaque clearProgress : Nat → Nat

/-- FREE VALUE (log 12). Whether a message of the channel (true: reply) with an undefined kind code "had it been
defined" would carry a tag (R210). -/
opaque undefinedCarriesTag : Bool → BitVec 6 → Bool

/-- FREE VALUE (log 12). Whether such a message would carry a line (R210). -/
opaque undefinedCarriesLine : Bool → BitVec 6 → Bool

/-- FREE VALUE (log 31). The header byte at place `k` of a message that is delimited after `n` bytes, short of its 8-byte header: the
manual says that such a message fails the form test, and not what its missing header bytes are (R210). -/
opaque missingHeaderByte : Nat → Nat → Byte

end Sys2Proof.Config
end

