-- ==== Sys2Proof/Syntax.lean ====
section
/-!
DEFINITION. The commands of the block: one constructor of `Instr` per row of spec/opcode_table.json, with its operands.
A command is one event of the part, taken at the block that owns the state it touches (00_scope.md, "Where the part's
activity begins"). An event that takes the next thing from a path inside the part names the path, and the message it
takes is the one that stands at the front of that path in the state.
-/

namespace Sys2Proof

/-- Where the link unit finds a message of the request channel: it is arriving now, or it has waited at the head of
the channel because 16 tag places were reserved (R130, R136). -/
inductive Take (α : Type) where
  | arriving (m : α)
  | waiting
  deriving DecidableEq, Repr

/-- The incoming channels of an agent link (R130). -/
inductive Channel where
  | request
  | reply
  deriving DecidableEq, Repr

/-- A Hello as received: header bits 20:18 (class) and 63:60 (revision) (12.1, 12.2). -/
structure HelloMsg where
  cls : BitVec 3
  revision : BitVec 4
  deriving DecidableEq, Repr

/-- A tagged message without data: FetchShared, FetchOwned, Promote, Snapshot, ReturnClean (12.1). -/
structure TagLine where
  tag : Tag
  line : LineAddr
  deriving DecidableEq, Repr

/-- Line data with its Poison attribute. -/
structure Poisoned where
  bytes : LineData
  poison : Bool
  deriving DecidableEq, Repr

/-- A ReturnDirty as received (12.1). -/
structure ReturnDirtyMsg where
  tag : Tag
  line : LineAddr
  data : Poisoned
  check : BitVec 16
  deriving DecidableEq, Repr

/-- The data a MaskedWrite (or a Scrub) writes: 64 bytes, Poison attribute, byte mask (R24, R100). -/
structure WriteData where
  data : Poisoned
  mask : ByteMask
  deriving DecidableEq, Repr

/-- A MaskedWrite as received (R100, 12.1). -/
structure MaskedWriteMsg where
  tag : Tag
  line : LineAddr
  write : WriteData
  check : BitVec 16
  deriving DecidableEq, Repr

/-- A Dirty reply as received (12.1). -/
structure DirtyMsg where
  handle : Handle
  line : LineAddr
  data : Poisoned
  check : BitVec 16
  deriving DecidableEq, Repr

/-- A message that fails the form test, as received: its header and its whole length in bytes (R210). -/
structure MalformedMsg where
  channel : Channel
  header : BitVec 64
  length : Nat
  deriving DecidableEq, Repr

/-- What the ECC check of a performed operation finds in the stored line (R176). The condition of the DRAM cells comes
from outside the part, so it is an operand of the performing commands (log 7). -/
inductive EccOutcome where
  | good
  | corrected
  | uncorrectable (asRead : LineData)
  deriving DecidableEq, Repr

/-- The commands of the BC2408, one constructor per row of spec/opcode_table.json. -/
inductive Instr where
  /-- HELLO (R133) -/
  | hello (n : Agent) (src : Take HelloMsg)
  /-- DEPART (R148) -/
  | depart (n : Agent) (src : Take Unit)
  /-- FLUSH_DONE (R137) -/
  | flushDone (n : Agent) (src : Take Unit)
  /-- FETCH_SHARED (R137) -/
  | fetchShared (n : Agent) (src : Take TagLine)
  /-- FETCH_OWNED (R137) -/
  | fetchOwned (n : Agent) (src : Take TagLine)
  /-- PROMOTE (R137) -/
  | promote (n : Agent) (src : Take TagLine)
  /-- SNAPSHOT (R137) -/
  | snapshot (n : Agent) (src : Take TagLine)
  /-- MASKED_WRITE (R137) -/
  | maskedWrite (n : Agent) (src : Take MaskedWriteMsg)
  /-- RETURN_DIRTY (R137) -/
  | returnDirty (n : Agent) (src : Take ReturnDirtyMsg)
  /-- RETURN_CLEAN (R137) -/
  | returnClean (n : Agent) (src : Take TagLine)
  /-- GONE (R143) -/
  | gone (n : Agent) (h : Handle) (line : LineAddr)
  /-- CLEAN (R143) -/
  | clean (n : Agent) (h : Handle) (line : LineAddr)
  /-- DIRTY (R144) -/
  | dirty (n : Agent) (m : DirtyMsg)
  /-- GRANT_ACK (R143) -/
  | grantAck (n : Agent) (h : Handle)
  /-- LINK_DOWN (R132) -/
  | linkDown (n : Agent)
  /-- RESPONSE_DEPARTS (R136, R146) -/
  | responseDeparts (n : Agent)
  /-- PROBE_DELIVERED (R147) -/
  | probeDelivered (n : Agent)
  /-- FINAL_RESPONSE_TAKEN (R140): the response at the front of the path from slice `sid` to LUn -/
  | finalResponseTaken (n : Agent) (sid : SliceId)
  /-- PROBE_TAKEN (R147) -/
  | probeTaken (n : Agent) (sid : SliceId)
  /-- FLUSH_REQUEST (R146) -/
  | flushRequest (n : Agent)
  /-- TIMEOUT_REPORT (R155) -/
  | timeoutReport (n : Agent) (sid : SliceId)
  /-- FAULT_REPORT (R155) -/
  | faultReport (n : Agent) (sid : SliceId)
  /-- FLUSH_TIMEOUT_REPORT (R155) -/
  | flushTimeoutReport (n : Agent)
  /-- DRAIN_COMPLETION_REPORT (R150) -/
  | drainCompletionReport (n : Agent) (sid : SliceId)
  /-- FENCE_COMPLETION_REPORT (R152) -/
  | fenceCompletionReport (n : Agent) (sid : SliceId)
  /-- DISCARD_NOTICE (R188) -/
  | discardNotice (n : Agent)
  /-- MEMORY_CLEAR_REPORT (R134) -/
  | memoryClearReport (n : Agent)
  /-- REQUEST_ARRIVAL (R32): the request at the front of the message path from LUn to the slice -/
  | requestArrival (sid : SliceId) (n : Agent)
  /-- RETURN_ARRIVAL (R80) -/
  | returnArrival (sid : SliceId) (n : Agent)
  /-- REPLY_GONE (R74) -/
  | replyGone (sid : SliceId) (n : Agent)
  /-- REPLY_CLEAN (R75) -/
  | replyClean (sid : SliceId) (n : Agent)
  /-- REPLY_DIRTY (R76) -/
  | replyDirty (sid : SliceId) (n : Agent)
  /-- GRANT_ACK_ARRIVAL (R64) -/
  | grantAckArrival (sid : SliceId) (n : Agent)
  /-- RESPONSE_DEADLINE_EXPIRY (R41) -/
  | responseDeadlineExpiry (h : Handle)
  /-- MEMORY_READ_COMPLETION (R57): the oldest completion of a read of the line -/
  | memoryReadCompletion (line : LineAddr)
  /-- OPERATION_SUBMITTED (R174) -/
  | operationSubmitted
  /-- READ (R177): the oldest queued operation for the line, a read, is performed -/
  | read (line : LineAddr) (ecc : EccOutcome)
  /-- FULL_WRITE (R178) -/
  | fullWrite (line : LineAddr)
  /-- MERGE_WRITE (R179) -/
  | mergeWrite (line : LineAddr) (ecc : EccOutcome)
  /-- POISON_WRITE (R180) -/
  | poisonWrite (line : LineAddr) (ecc : EccOutcome)
  /-- MEMORY_CLEAR_COMPLETE (R183) -/
  | memoryClearComplete
  /-- MEMORY_READY (R200) -/
  | memoryReady
  /-- FENCE_NOTICE (R160) -/
  | fenceNotice (sid : SliceId) (n : Agent)
  /-- DRAIN_NOTICE (R34) -/
  | drainNotice (sid : SliceId) (n : Agent)
  /-- DRAIN_SWEEP_NOTICE (R118) -/
  | drainSweepNotice (sid : SliceId) (n : Agent)
  /-- RELEASE_NOTICE (R159) -/
  | releaseNotice (sid : SliceId) (n : Agent)
  /-- SWEEP_START_NOTICE (R190) -/
  | sweepStartNotice (sid : SliceId)
  /-- WITHDRAWAL_NOTICE (R194) -/
  | withdrawalNotice (sid : SliceId)
  /-- SWEEP_ARRIVAL (R123) -/
  | sweepArrival (sid : SliceId)
  /-- INSPECT_LOOKUP (R10) -/
  | inspectLookup (sid : SliceId)
  /-- SCRUB_ARRIVAL (R205) -/
  | scrubArrival (sid : SliceId)
  /-- QUIESCE_FLUSH_DONE (R188) -/
  | quiesceFlushDone (n : Agent)
  /-- LINK_STATE_REPORT (R189) -/
  | linkStateReport (n : Agent)
  /-- FLUSH_TIMER_EXPIRY (R189) -/
  | flushTimerExpiry
  /-- QUIESCE_COMPLETION_REPORT (R192) -/
  | quiesceCompletionReport (sid : SliceId)
  /-- DETACH (R202): `arg` is bits 31:4 of the value written to the command offset (12.4) -/
  | detach (arg : BitVec 28)
  /-- FENCE (R202) -/
  | fence (arg : BitVec 28)
  /-- RELEASE_FENCE (R168) -/
  | releaseFence (arg : BitVec 28)
  /-- CLEAR_FAULT (R202) -/
  | clearFault (arg : BitVec 28)
  /-- QUIESCE (R187) -/
  | quiesce (arg : BitVec 28)
  /-- RESUME (R194) -/
  | resume (arg : BitVec 28)
  /-- INSPECT (R204) -/
  | inspect (arg : BitVec 28)
  /-- SCRUB (R205) -/
  | scrub (arg : BitVec 28)
  /-- UNDEFINED_COMMAND_CODE (R212) -/
  | undefinedCommandCode (code : BitVec 4) (arg : BitVec 28)
  /-- COMMAND_OUTCOME (R201) -/
  | commandOutcome
  /-- CONFIGURATION_WRITE (R199) -/
  | configurationWrite (offset : BitVec 8) (value : BitVec 32)
  /-- ALERT_STATUS_WRITE (R207) -/
  | alertStatusWrite (value : BitVec 32)
  /-- OFFSET_WRITE (R197) -/
  | offsetWrite (offset : BitVec 8)
  /-- SHORT_WRITE (R197) -/
  | shortWrite (offset : BitVec 8) (data : List Byte)
  /-- REGISTER_WRITE_NO_EFFECT (R198) -/
  | registerWriteNoEffect (offset : BitVec 8) (value : BitVec 32)
  /-- POWER_ON_RESET (R208) -/
  | powerOnReset
  /-- POWER_ON_RESET_RELEASE (R183): the straps as they stand at the release (true: MSIZE high) -/
  | powerOnResetRelease (msize : Bool) (addr : BitVec 2)
  /-- HARD_RESET (R208) -/
  | hardReset
  /-- HARD_RESET_RELEASE (R184) -/
  | hardResetRelease (msize : Bool) (addr : BitVec 2)
  /-- MESSAGE_FAILING_FORM_TEST (R210) -/
  | messageFailingFormTest (n : Agent) (src : Take MalformedMsg)
  deriving DecidableEq, Repr

end Sys2Proof
end

