-- ==== Sys2Proof/Machine/Operands.lean ====
section
/-!
DEFINITION. What the fields of commands and messages mean: the address function (R3, R4), handles (R23), kind codes and
the form test (12.1, 12.2, R210), the data check (R211).
-/

namespace Sys2Proof

/-- The operand of a message command as a message of the request channel. -/
def Take.map {α β : Type} (f : α → β) : Take α → Take β
  | .arriving m => .arriving (f m)
  | .waiting => .waiting

/-- The message comes from the link, and is not one that waits in the state's list. -/
def Take.received {α : Type} : Take α → Bool
  | .arriving _ => true
  | .waiting => false

end Sys2Proof

namespace Sys2Proof.Machine

/-! ## The address function (R3, R4) -/

/-- The slice of a line: bits 1:0 exclusive-OR bits 12:11 (R3). -/
def sliceOf (l : LineAddr) : SliceId := (l.extractLsb' 0 2 ^^^ l.extractLsb' 11 2).toFin

/-- The set index of a line: bits 12:2 (R3). -/
def setOf (l : LineAddr) : Nat := (l.extractLsb' 2 11).toNat

/-- The tag a way stores for a line: bits 27:13 (R3). -/
def tagOf (l : LineAddr) : BitVec 15 := l.extractLsb' 13 15

/-- The line that a slice, a set index and a tag name together (R4). -/
def lineOf (sid : SliceId) (set : Nat) (tag : BitVec 15) : LineAddr :=
  let p : BitVec 11 := BitVec.ofNat 11 set
  tag ++ p ++ (BitVec.ofFin sid ^^^ p.extractLsb' 9 2 : BitVec 2)

/-! ## Handles (R23) -/

/-- The slice of a handle: the handle divided by 32 (R23). -/
def handleSlice (h : Handle) : SliceId := ⟨h.val / 32, by omega⟩

/-- The record index of a handle within its slice (R23). -/
def handleIdx (h : Handle) : RecIdx := ⟨h.val % 32, by omega⟩

/-- The handle of record `i` of slice `sid`: slice number × 32 plus the index (R23). -/
def handleOf (sid : SliceId) (i : RecIdx) : Handle := ⟨sid.val * 32 + i.val, by omega⟩

/-! ## Agent sets and slice sets -/

/-- Agent n belongs to the set. -/
def AgentSet.mem (a : AgentSet) (n : Agent) : Bool := a.getLsbD n

/-- The set {n}. -/
def AgentSet.single (n : Agent) : AgentSet := (1#8) <<< n.val

/-- The set with n added. -/
def AgentSet.insert (a : AgentSet) (n : Agent) : AgentSet := a ||| AgentSet.single n

/-- The set with n removed. -/
def AgentSet.erase (a : AgentSet) (n : Agent) : AgentSet := a &&& ~~~ AgentSet.single n

/-- The members of the set, in agent order. -/
def AgentSet.toList (a : AgentSet) : List Agent := (List.finRange 8).filter (AgentSet.mem a)

/-- The set with slice s added. -/
def SliceSet.insert (a : SliceSet) (s : SliceId) : SliceSet := a ||| ((1#4) <<< s.val)

/-- All four slices. -/
def SliceSet.all : SliceSet := 15#4

/-! ## The data check (R211) -/

/-- One bit into the CRC register: shift left by one; where the bit shifted out, exclusive-OR the data bit, is one, the
register is exclusive-ORed with 0x1021 (R211). -/
def crcBit (c : BitVec 16) (b : Bool) : BitVec 16 :=
  if (c.msb ^^ b) then (c <<< 1) ^^^ 0x1021#16 else c <<< 1

/-- One byte, most significant bit first (R211). -/
def crcByte (c : BitVec 16) (b : Byte) : BitVec 16 :=
  [7, 6, 5, 4, 3, 2, 1, 0].foldl (fun c i => crcBit c (b.getLsbD i)) c

/-- The CRC of a string of bytes, from the initial value 0xFFFF (R211). -/
def crc (bs : List Byte) : BitVec 16 := bs.foldl crcByte 0xFFFF#16

/-- The 8 bytes of a byte mask, mask byte 0 first (12.1). -/
def maskBytes (m : ByteMask) : List Byte := (List.range 8).map fun k => m.extractLsb' (8 * k) 8

/-- The data check of a ReturnDirty or a Dirty reply: the 64 data bytes (R144, R211). -/
def dataCheck (d : LineData) : BitVec 16 := crc d.toList

/-- The data check of a MaskedWrite: the data bytes and then the mask bytes (R144, R211). -/
def maskedCheck (w : WriteData) : BitVec 16 := crc (w.data.bytes.toList ++ maskBytes w.mask)

/-! ## Kind codes (12.2) -/

/-- Kind codes of the request channel (12.2). -/
def kindHello : BitVec 6 := 0x10
def kindDepart : BitVec 6 := 0x11
def kindFlushDone : BitVec 6 := 0x12
def kindFetchShared : BitVec 6 := 0x01
def kindFetchOwned : BitVec 6 := 0x02
def kindPromote : BitVec 6 := 0x03
def kindSnapshot : BitVec 6 := 0x04
def kindMaskedWrite : BitVec 6 := 0x05
def kindReturnDirty : BitVec 6 := 0x08
def kindReturnClean : BitVec 6 := 0x09

/-- Kind codes of the reply channel (12.2). -/
def kindGone : BitVec 6 := 0x01
def kindClean : BitVec 6 := 0x02
def kindDirty : BitVec 6 := 0x03
def kindGrantAck : BitVec 6 := 0x04

/-- The length in bytes of a message of the kind, header included, or none where the code is undefined for the channel
(12.1, 12.2): 8 header bytes, 64 data bytes, 8 mask bytes, 2 check bytes. -/
def kindLength (c : Channel) (code : BitVec 6) : Option Nat :=
  match c with
  | .request =>
    if code = kindReturnDirty then some 74
    else if code = kindMaskedWrite then some 82
    else if code = kindFetchShared ∨ code = kindFetchOwned ∨ code = kindPromote ∨ code = kindSnapshot
      ∨ code = kindReturnClean ∨ code = kindHello ∨ code = kindDepart ∨ code = kindFlushDone then some 8
    else none
  | .reply =>
    if code = kindDirty then some 74
    else if code = kindGone ∨ code = kindClean ∨ code = kindGrantAck then some 8
    else none

/-- Header bits 5:0, the kind code (12.1). -/
def headerKind (h : BitVec 64) : BitVec 6 := h.extractLsb' 0 6

/-- Header bits 9:6, the tag (12.1). -/
def headerTag (h : BitVec 64) : Tag := (h.extractLsb' 6 4).toFin

/-- Header bits 51:24, the line address (12.1). -/
def headerLine (h : BitVec 64) : LineAddr := h.extractLsb' 24 28

/-- The form test of R210 fails: the kind code is undefined for the channel, or the length does not match the kind. -/
def failsForm (m : MalformedMsg) : Bool := kindLength m.channel (headerKind m.header) != some m.length

/-- Whether messages of the kind carry a tag (12.1: tagged requests and returns); for an undefined code the manual's
"had it been defined" gives no answer, and a free value stands for it (R210, log 12). -/
def carriesTag (c : Channel) (code : BitVec 6) : Bool :=
  match kindLength c code, c with
  | none, _ => Config.undefinedCarriesTag (c = .reply) code
  | some _, .reply => false
  | some _, .request => code != kindHello && code != kindDepart && code != kindFlushDone

/-- Whether messages of the kind carry a line (12.1: line-bearing requests and returns; replies) (R210, log 12). -/
def carriesLine (c : Channel) (code : BitVec 6) : Bool :=
  match kindLength c code, c with
  | none, _ => Config.undefinedCarriesLine (c = .reply) code
  | some _, .reply => code != kindGrantAck
  | some _, .request => code != kindHello && code != kindDepart && code != kindFlushDone

/-! ## Register offsets (12.4) -/

def offConfig : BitVec 8 := 0x04
def offAlertMask : BitVec 8 := 0x08
def offAlertStatus : BitVec 8 := 0x0C
def offCommand : BitVec 8 := 0x10

/-- The command codes that are defined: 1 to 8 (12.4). -/
def commandDefined (code : BitVec 4) : Bool := 1 ≤ code.toNat && code.toNat ≤ 8

/-! ## Merging a masked write (R106, R179) -/

/-- Byte by byte: a byte whose mask flag is set takes the write's byte, each other byte keeps the base's (R106). -/
def mergeBytes (mask : ByteMask) (new base : LineData) : LineData :=
  Vector.ofFn fun i => if mask.getLsbD i.val then new[i] else base[i]

/-- Poison of a merged line, by the table of R106. -/
def mergedPoison (writePoison : Bool) (mask : ByteMask) (basePoison : Bool) : Bool :=
  if writePoison then true else if mask = BitVec.allOnes 64 then false else basePoison

/-- A line of 64 zero bytes. -/
def zeroLine : LineData := Vector.replicate 64 0#8

end Sys2Proof.Machine
end

