-- ==== Sys2Proof/WellFormed.lean ====
section
/-!
DEFINITION. Which terms of `Instr` are commands of their row. The types of the operands say most of it; the checks below
say the rest. `exec` refuses a term that fails its check, by name.
-/

namespace Sys2Proof

open Sys2Proof.Machine

/-- The row's own check on its operands:
UNDEFINED_COMMAND_CODE has code 0 or 9 to 15 (R212); CONFIGURATION_WRITE goes to one of the two configuration offsets and
REGISTER_WRITE_NO_EFFECT to none of the offsets a write acts on (R198, 12.4); SHORT_WRITE carries one to three data
bytes (R197); MESSAGE_FAILING_FORM_TEST carries a message that fails the form test (R210). -/
def Instr.wf : Instr → Bool
  | .undefinedCommandCode code _ => !commandDefined code
  | .configurationWrite off _ => off = offConfig || off = offAlertMask
  | .registerWriteNoEffect off _ =>
    !(off = offConfig || off = offAlertMask || off = offAlertStatus || off = offCommand)
  | .shortWrite _ data => 1 ≤ data.length && data.length ≤ 3
  | .messageFailingFormTest _ (.arriving m) => failsForm m
  | _ => true

end Sys2Proof
end

