-- ==== Sys2Proof/Machine/State.lean ====
section
/-!
DEFINITION. The state of the BC2408 as plain data, what a step can stop with, and the state after reset. Every piece of
state that the manual gives a block stands here under the manual's name; the messages that are on their way between two
blocks stand in the path that carries them (R131, R208).
-/

namespace Sys2Proof.Machine

/-! ## What a step can stop with -/

/-- Why the machine stops. The manual's faults are state (a fenced link, a fault record); none of them stops the part,
so there is no constructor, and no command faults. -/
inductive Fault where
  deriving DecidableEq, Repr

/-- Why a command has no meaning. -/
inductive Refusal where
  /-- Raised by exec for a command that has no meaning yet; no arm raises it. Safe. -/
  | notModelled (mnemonic : String)
  /-- Raised by the five meanings whose rows bound their operands (Instr.wf), for a term that is no command of the row
  (log 18). Safe: such a term stands for no event of the part. -/
  | illFormed
  deriving DecidableEq, Repr

/-! ## Messages and notices -/

/-- The kinds of transaction (R24); waiters have the same kinds but for recall (R31). -/
inductive Kind where
  | fetchShared
  | fetchOwned
  | promote
  | snapshot
  | maskedWrite
  | recall
  | scrub
  deriving DecidableEq, Repr

/-- A message of the request channel (R130). -/
inductive ReqMsg where
  | hello (m : HelloMsg)
  | depart
  | flushDone
  | fetchShared (m : TagLine)
  | fetchOwned (m : TagLine)
  | promote (m : TagLine)
  | snapshot (m : TagLine)
  | maskedWrite (m : MaskedWriteMsg)
  | returnDirty (m : ReturnDirtyMsg)
  | returnClean (m : TagLine)
  | malformed (m : MalformedMsg)
  deriving DecidableEq, Repr

/-- An agent's answer to a probe (R71). -/
inductive Reply where
  | gone
  | clean
  | dirty (d : Poisoned)
  deriving DecidableEq, Repr

/-- What travels from a link unit to a slice on the message path (R131, R159). -/
inductive SliceMsg where
  | request (kind : Kind) (tag : Tag) (line : LineAddr) (write : Option WriteData)
  | returned (tag : Tag) (line : LineAddr) (dirty : Option Poisoned)
  | reply (h : Handle) (line : LineAddr) (r : Reply)
  | grantAck (h : Handle)
  | release
  deriving DecidableEq, Repr

/-- What travels from a link unit to a slice on the notice path (R131). -/
inductive Notice where
  | drain
  | drainSweep
  | fence
  deriving DecidableEq, Repr

/-- The probes (R68). -/
inductive ProbeKind where
  | revoke
  | demote
  | peek
  deriving DecidableEq, Repr

/-- A probe: kind, handle, line (R68). -/
structure Probe where
  kind : ProbeKind
  handle : Handle
  line : LineAddr
  deriving DecidableEq, Repr

/-- The causes of Retry (12.2). -/
inductive RetryCause where
  | busy
  | quiesced
  | selfOwned
  deriving DecidableEq, Repr

/-- The causes of Refused (12.2). -/
inductive RefusedCause where
  | address
  | notOnline
  | departing
  deriving DecidableEq, Repr

/-- A response to a tagged message (R130, R140); dataRetry is the tag form of DataRetry (R144). -/
inductive Response where
  | grantShared (tag : Tag) (h : Handle) (d : Poisoned)
  | grantOwned (tag : Tag) (h : Handle) (d : Poisoned)
  | grantPromote (tag : Tag) (h : Handle)
  | snapshotData (tag : Tag) (d : Poisoned)
  | writeDone (tag : Tag)
  | returnDone (tag : Tag)
  | retry (tag : Tag) (cause : RetryCause)
  | refused (tag : Tag) (cause : RefusedCause)
  | dataRetry (tag : Tag)
  deriving DecidableEq, Repr

/-- What travels from a slice to a link unit, on one path (R131). -/
inductive LinkMsg where
  | response (r : Response)
  | probe (p : Probe)
  | timeout (line : LineAddr)
  | fault (channel : Channel) (code : BitVec 6) (line : Option LineAddr) (tag : Option Tag)
  | drainDone
  | fenceDone
  deriving DecidableEq, Repr

/-- The session parameters and link-control messages of the response channel (R133, R146). -/
inductive Control where
  | welcome (poolLines : Nat) (timeoutMs : BitVec 8)
  | helloRefusedDisabled
  | helloRefusedRevision
  | flushRequest
  | farewell
  deriving DecidableEq, Repr

/-- One message of the response channel: a final response in its tag place, a link-control message, or a DataRetry of
the reply-retry list (R146). -/
inductive Outbound where
  | final (r : Response)
  | control (c : Control)
  | replyRetry (h : Handle)
  deriving DecidableEq, Repr

/-- What travels from the quiesce controller to a link unit (R187 to R189). -/
inductive ControllerMsg where
  | flushRequest
  | flushTimeout
  | discard
  deriving DecidableEq, Repr

/-! ## Link units -/

/-- The link states and their sub-states (7.2). -/
inductive LinkState where
  | offline
  | online
  | drainingSettling
  | drainingSweeping
  | fencedSweeping
  | fencedSwept
  deriving DecidableEq, Repr

/-- The agent class recorded at Welcome (7.2). -/
inductive AgentClass where
  | unset
  | caching
  | noncaching
  deriving DecidableEq, Repr

/-- A link state with its class, as a link-state report carries it (R131, R200). -/
structure LinkStatus where
  state : LinkState
  cls : AgentClass
  deriving DecidableEq, Repr

/-- The six fence causes (R155). -/
inductive FenceCause where
  | timeout
  | protocol
  | linkLost
  | dataCheck
  | flushTimeout
  | manual
  deriving DecidableEq, Repr

/-- A fault record that holds a fault (R156): the kind comes with its channel. -/
structure FaultRecord where
  cause : FenceCause
  kind : Option (Channel × BitVec 6)
  line : Option LineAddr
  tag : Option Tag
  deriving DecidableEq, Repr

/-- The outcomes of management commands (R201, 12.4 offset 0x14). -/
inductive CommandStatus where
  | none
  | running
  | busy
  | done
  | accepted
  | notApplicable
  | address
  | noResource
  deriving DecidableEq, Repr

/-- The state of LUn (7.2), with the paths that leave it. -/
structure LinkUnit where
  state : LinkState
  cls : AgentClass
  heldHello : Option AgentClass
  tags : Vector Bool 16
  confirm : List Handle
  reservations : Nat
  slicesReported : SliceSet
  consecutive : Nat
  dataCheckFailures : BitVec 16
  discarded : BitVec 16
  retries : BitVec 16
  faultRecord : Option FaultRecord
  faultCount : BitVec 8
  responses : List Outbound
  probes : List Probe
  requestChannel : List ReqMsg
  toSlice : Vector (List SliceMsg) 4
  notices : Vector (List Notice) 4
  reports : List LinkStatus
  flushDones : Nat
  fromController : List ControllerMsg
  clearReport : Bool
  outcome : Option CommandStatus
  deriving DecidableEq, Repr

/-! ## Coherence slices -/

/-- A directory entry (R6). -/
inductive Entry where
  | shared (s : AgentSet)
  | owned (b : Agent)
  deriving DecidableEq, Repr

/-- The contents of a way (R6). -/
inductive Way where
  | empty
  | occupied (tag : BitVec 15) (e : Entry)
  | reserved (tag : BitVec 15) (h : Handle)
  deriving DecidableEq, Repr

/-- One set: 8 ways and the recency order, most recently granted first (R5, R13). -/
structure DirSet where
  ways : Vector Way 8
  recency : List WayIdx
  deriving DecidableEq, Repr

/-- The phases of a record (R23). -/
inductive Phase where
  | free
  | gather
  | confirm
  deriving DecidableEq, Repr

/-- The originator of a record or waiter (R24, R31). -/
inductive Originator where
  | agent (n : Agent) (tag : Tag)
  | sweep
  | management
  deriving DecidableEq, Repr

/-- The role in which an agent was probed (R68). -/
inductive Role where
  | owner
  | sharer
  deriving DecidableEq, Repr

/-- How a wait was settled: by Gone, Clean or Dirty, by a return absorbed after Gone, or as a lost owner (R72, R73,
R161). -/
inductive SettledBy where
  | gone
  | clean
  | dirty
  | returned
  | lost
  deriving DecidableEq, Repr

/-- The states of a wait (R72, R73). -/
inductive WaitState where
  | awaitingReply
  | replyAfterReturn
  | awaitingReturn
  | settled (how : SettledBy)
  deriving DecidableEq, Repr

/-- A record's wait on one agent for one line (R24, R68). -/
structure Wait where
  agent : Agent
  role : Role
  probe : ProbeKind
  state : WaitState
  deriving DecidableEq, Repr

/-- The sources of a data buffer (R24); `none` is an absent buffer. -/
inductive DataSource where
  | memory
  | dirtyReply
  | returnDirty
  deriving DecidableEq, Repr

/-- A filled data buffer (R24). -/
structure Buffer where
  data : Poisoned
  source : DataSource
  deriving DecidableEq, Repr

/-- The grant plan (R24). -/
inductive Plan where
  | none
  | grantShared (s : AgentSet)
  | grantOwned
  | grantPromote
  | snapshotData
  | writeDone
  deriving DecidableEq, Repr

/-- The response deadline (R40, R41): expired is a stopped deadline whose record still awaits the agents that the
expiry named. -/
inductive Deadline where
  | stopped
  | running (expiry : Nat)
  | expired
  deriving DecidableEq, Repr

/-- A transaction record (R24). -/
structure Record where
  phase : Phase
  originator : Originator
  kind : Kind
  line : LineAddr
  waits : List Wait
  victim : Option LineAddr
  victimWaits : List Wait
  memRead : Bool
  buffer : Option Buffer
  write : Option WriteData
  plan : Plan
  deadline : Deadline
  originFenced : Bool
  /-- The exclusive-on-sole-reader value read at the start (R45). -/
  exclusive : Bool
  /-- A recall: the agents it revokes (R125). -/
  revokeSet : AgentSet
  /-- A recall: the DRAIN jobs it serves, by agent, and whether it serves the QUIESCE job (R125, R127). -/
  servesDrain : AgentSet
  servesQuiesce : Bool
  /-- A recall that the engine started during its current visit (R120). -/
  thisVisit : Bool
  /-- The last write of the record's kind has been ordered (R102 to R107, R206, R62). -/
  ordered : Bool
  /-- The record's last act is made: it ends once its operations have left the submission list (R173). -/
  finished : Bool
  deriving DecidableEq, Repr

/-- A request in the line wait queue (R31). -/
structure Waiter where
  originator : Originator
  kind : Kind
  line : LineAddr
  write : Option WriteData
  deriving DecidableEq, Repr

/-- The kinds of sweep job (R117); a QUIESCE job carries its quiesce number (R191). -/
inductive JobKind where
  | drain (n : Agent)
  | fence (n : Agent)
  | quiesce (number : BitVec 8)
  deriving DecidableEq, Repr

/-- An active job (R117): applied at the current visit (R121), or joined too late to be applied at it (R118). -/
structure Job where
  kind : JobKind
  setsLeft : Nat
  inFlight : Nat
  applied : Bool
  late : Bool
  deriving DecidableEq, Repr

/-- The visit state (R117). `travelling` (R123: between leaving a set and arriving at the next) and `leaving` (R173: the
visit's work is done, a poison write of it still waits to be submitted) are intervals of WAITING AT SET. -/
inductive VisitState where
  | idle
  | waitingAtSet
  | waitingForRecord
  | leaving
  | travelling
  deriving DecidableEq, Repr

/-- A sweep engine (R117). -/
structure SweepEngine where
  position : Nat
  visit : VisitState
  jobs : List Job
  pendingLines : List LineAddr
  deriving DecidableEq, Repr

/-- A memory operation as a slice orders it (R172). -/
inductive MemOp where
  | read (line : LineAddr) (h : Handle)
  | fullWrite (line : LineAddr) (d : Poisoned)
  | mergeWrite (line : LineAddr) (bytes : LineData) (mask : ByteMask)
  | poisonWrite (line : LineAddr)
  deriving DecidableEq, Repr

/-- Whose work ordered an operation, for the three holds of R173. -/
inductive OpOwner where
  | record (i : RecIdx)
  | engine
  | accepted
  deriving DecidableEq, Repr

/-- An operation in a submission list (R173). -/
structure Ordered where
  op : MemOp
  owner : OpOwner
  deriving DecidableEq, Repr

/-- The result of an Inspect (R10, R204). Items without a value are zero. -/
structure InspectResult where
  present : Bool
  owned : Bool
  sharers : AgentSet
  owner : Agent
  reserved : Bool
  way : WayIdx
  recency : Nat
  held : Bool
  deriving DecidableEq, Repr

/-- An outcome on its way to the command engine (R201). -/
structure CommandOutcome where
  status : CommandStatus
  result : Option InspectResult
  deriving DecidableEq, Repr

/-- A coherence slice, with the paths that leave it. -/
structure Slice where
  dir : List (Nat × DirSet)
  records : Vector Record 32
  waitQueue : List Waiter
  fenced : AgentSet
  draining : AgentSet
  engine : SweepEngine
  pendingQuiesce : Option (BitVec 8)
  submission : List Ordered
  toLink : Vector (List LinkMsg) 8
  toController : List (BitVec 8)
  toEngine : List CommandOutcome
  /-- How many choices among several FREE records this slice has made (log 4). -/
  picks : Nat
  deriving DecidableEq, Repr

/-! ## The memory channel -/

/-- A place of the memory request queue (R174). -/
structure QueuedOp where
  op : MemOp
  sid : SliceId
  deriving DecidableEq, Repr

/-- A read's completion on its way to its slice (R175). -/
structure Completion where
  line : LineAddr
  handle : Handle
  data : Poisoned
  deriving DecidableEq, Repr

/-- The stacked DRAM: the pool's bytes by byte address and the poison marks by line address, both sorted and listing
nothing that an unlisted place reads as; the start-up clear; and which lines at or above the clear position an operation
has written since power-on (R181, R183, R185; log 6, log 11). -/
structure Dram where
  cells : List Host.Cell
  marks : List (Nat × Bool)
  known : List (Nat × Bool)
  clearRunning : Bool
  clearPosition : Nat
  epoch : Nat
  deriving DecidableEq, Repr

/-- The memory channel (Chapter 9). -/
structure MemChannel where
  queue : List QueuedOp
  lastServed : SliceId
  dram : Dram
  corrected : BitVec 16
  uncorrectable : BitVec 16
  lastUncorrectable : Option LineAddr
  completions : List Completion
  deriving DecidableEq, Repr

/-! ## The management unit -/

/-- The quiesce states (R186). -/
inductive QuiesceState where
  | normal
  | flushing
  | sweeping
  | quiesced
  deriving DecidableEq, Repr

/-- The last outcome of a quiesce (R186). -/
inductive QuiesceOutcome where
  | none
  | completed
  | aborted
  deriving DecidableEq, Repr

/-- The quiesce controller (R186). -/
structure QuiesceController where
  state : QuiesceState
  flushPending : AgentSet
  timer : Option Nat
  number : BitVec 8
  reported : SliceSet
  outcome : QuiesceOutcome
  deriving DecidableEq, Repr

/-- What travels from the management unit to a slice on the command path (R190, R194, R204, R205). -/
inductive CommandMsg where
  | inspect (line : LineAddr)
  | scrub (line : LineAddr)
  | sweepStart (number : BitVec 8)
  | withdrawal
  deriving DecidableEq, Repr

/-- The management unit (Chapter 11). Alert items stand at the bit positions of offset 0x0C (12.4). -/
structure Mgmt where
  offset : BitVec 8
  agentEnable : BitVec 8
  exclusive : Bool
  responseTimeout : BitVec 8
  flushTimeout : BitVec 8
  alertMask : BitVec 19
  alerts : BitVec 19
  linkCopy : Vector LinkStatus 8
  memoryReady : Bool
  clearReport : Bool
  /-- The command engine is RUNNING; `command` is then the command in progress. -/
  running : Bool
  command : BitVec 32
  status : CommandStatus
  result : Option InspectResult
  quiesce : QuiesceController
  cmdPath : Vector (List CommandMsg) 4
  deriving DecidableEq, Repr

/-- Which reset is applied (R208). -/
inductive ResetPin where
  | released
  | powerOn
  | hard
  deriving DecidableEq, Repr

/-- The whole part. -/
structure State where
  links : Vector LinkUnit 8
  slices : Vector Slice 4
  mem : MemChannel
  mgmt : Mgmt
  resetPin : ResetPin
  msize : Bool
  addr : BitVec 2
  now : Nat
  pending : List Instr
  deriving DecidableEq, Repr

/-! ## Reset values -/

/-- A link unit after power-on reset (R154). -/
def LinkUnit.initial : LinkUnit where
  state := .offline
  cls := .unset
  heldHello := none
  tags := Vector.replicate 16 false
  confirm := []
  reservations := 0
  slicesReported := 0
  consecutive := 0
  dataCheckFailures := 0
  discarded := 0
  retries := 0
  faultRecord := none
  faultCount := 0
  responses := []
  probes := []
  requestChannel := []
  toSlice := Vector.replicate 4 []
  notices := Vector.replicate 4 []
  reports := []
  flushDones := 0
  fromController := []
  clearReport := false
  outcome := none

/-- A set with every way EMPTY (R21). -/
def DirSet.empty : DirSet := ⟨Vector.replicate 8 .empty, []⟩

/-- A FREE record: its fields have no meaning (R23) and stand at fixed values. -/
def Record.free : Record where
  phase := .free
  originator := .sweep
  kind := .recall
  line := 0
  waits := []
  victim := none
  victimWaits := []
  memRead := false
  buffer := none
  write := none
  plan := .none
  deadline := .stopped
  originFenced := false
  exclusive := false
  revokeSet := 0
  servesDrain := 0
  servesQuiesce := false
  thisVisit := false
  ordered := false
  finished := false

/-- A slice after either reset (R21, R43, R129, R170, R185, R196). -/
def Slice.initial : Slice where
  dir := []
  records := Vector.replicate 32 Record.free
  waitQueue := []
  fenced := 0
  draining := 0
  engine := ⟨0, .idle, [], []⟩
  pendingQuiesce := none
  submission := []
  toLink := Vector.replicate 8 []
  toController := []
  toEngine := []
  picks := 0

/-- The memory channel after power-on reset has been released: the clear runs from line 0 (R182, R183, R185). -/
def MemChannel.initial : MemChannel where
  queue := []
  lastServed := 3
  dram := ⟨[], [], [], true, 0, 0⟩
  corrected := 0
  uncorrectable := 0
  lastUncorrectable := none
  completions := []

/-- The quiesce controller after either reset (R186). -/
def QuiesceController.initial : QuiesceController := ⟨.normal, 0, none, 0, 0, .none⟩

/-- The management unit after power-on reset (R197, R199, R201, R209). -/
def Mgmt.initial : Mgmt where
  offset := 0
  agentEnable := 0xFF
  exclusive := true
  responseTimeout := 20
  flushTimeout := 20
  alertMask := 0
  alerts := 0
  linkCopy := Vector.replicate 8 ⟨.offline, .unset⟩
  memoryReady := false
  clearReport := false
  running := false
  command := 0
  status := .none
  result := none
  quiesce := QuiesceController.initial
  cmdPath := Vector.replicate 4 []

/-- The part right after a power-on reset has been released, with the straps low (log 3): every field at the value its
own chapter gives (R208), the memory clear about to write line 0 (R183). -/
def State.reset : State where
  links := Vector.replicate 8 LinkUnit.initial
  slices := Vector.replicate 4 Slice.initial
  mem := MemChannel.initial
  mgmt := Mgmt.initial
  resetPin := .released
  msize := false
  addr := 0
  now := 0
  pending := []

end Sys2Proof.Machine
end

