-- ==== Sys2Proof/Machine/Ops.lean ====
section
/-!
DEFINITION. The named operations over the state's data: sparse tables in their one canonical form, the DRAM (R175 to
R185), lists and paths, saturating counts, and access to the blocks of the state.
-/

namespace Sys2Proof.Machine

/-! ## Sparse tables: (key, value) pairs with rising keys, listing no value equal to the default -/

/-- What the table holds at a key: the default where the key is not listed. -/
def Sparse.get {α : Type} (d : α) : List (Nat × α) → Nat → α
  | [], _ => d
  | (k, v) :: m, a => if a = k then v else Sparse.get d m a

/-- The table with a value at a key, in canonical form: storing the default removes the entry. -/
def Sparse.put {α : Type} [DecidableEq α] (d : α) : List (Nat × α) → Nat → α → List (Nat × α)
  | [], a, v => if v = d then [] else [(a, v)]
  | (k, w) :: m, a, v =>
    if a < k then (if v = d then (k, w) :: m else (a, v) :: (k, w) :: m)
    else if a = k then (if v = d then m else (a, v) :: m)
    else (k, w) :: Sparse.put d m a v

/-- The canonical form: keys strictly rising, no entry equal to the default. -/
def Sparse.wf {α : Type} [DecidableEq α] (d : α) : List (Nat × α) → Bool
  | [] => true
  | (k, v) :: m => v != d && m.all (fun e => k < e.1) && Sparse.wf d m

/-! ## The DRAM -/

/-- The clear or an operation has written the line since power-on (R183, R185, log 6). -/
def Dram.lineKnown (d : Dram) (l : Nat) : Bool := l < d.clearPosition || Sparse.get false d.known l

/-- What a byte that no entry lists reads as: 0 on a line written since power-on (the clear's zeros, R183); on a line
that nothing has written since power-on, a free value (R185, log 6). -/
def Dram.unlisted (d : Dram) (a : Nat) : Byte :=
  if d.lineKnown (a / 64) then 0#8 else (Config.powerOnLine d.epoch (a / 64))[a % 64]'(Nat.mod_lt _ (by decide))

/-- One byte of the pool (R172). -/
def Dram.readByte (d : Dram) (a : Nat) : Byte :=
  if d.lineKnown (a / 64) then Sparse.get 0#8 d.cells a else d.unlisted a

/-- The 64 bytes of a line; line l spans byte addresses l × 64 to l × 64 + 63 (R1). -/
def Dram.readLine (d : Dram) (l : Nat) : LineData := Vector.ofFn fun i => d.readByte (l * 64 + i.val)

/-- The line's poison mark (R181). -/
def Dram.marked (d : Dram) (l : Nat) : Bool :=
  if d.lineKnown l then Sparse.get false d.marks l else Config.powerOnMark d.epoch l

/-- The cells with the 64 bytes of line l stored. Irreducible, so that no proof unfolds the 64 puts by accident; its laws are
in Laws/Memory.lean. -/
@[irreducible] def storeBytes (cells : List Host.Cell) (l : Nat) (bytes : LineData) : List Host.Cell :=
  (List.finRange 64).foldl (fun m i => Sparse.put 0#8 m (l * 64 + i.val) bytes[i]) cells

/-- A whole line is stored with fresh ECC, and its poison mark set or cleared (R178 to R180). -/
def Dram.writeLine (d : Dram) (l : Nat) (bytes : LineData) (mark : Bool) : Dram :=
  { d with
    cells := storeBytes d.cells l bytes
    marks := Sparse.put false d.marks l mark
    known := if l < d.clearPosition then d.known else Sparse.put false d.known l true }

/-- The clear advances to line `hi`: every line below it that it had not passed is 64 zero bytes without mark (R183). -/
def Dram.clearTo (d : Dram) (hi : Nat) : Dram :=
  if hi ≤ d.clearPosition then d
  else
    { d with
      cells := d.cells.filter fun c => !(d.clearPosition ≤ c.1 / 64 && c.1 / 64 < hi)
      marks := d.marks.filter fun c => !(d.clearPosition ≤ c.1 && c.1 < hi)
      known := d.known.filter fun c => !(d.clearPosition ≤ c.1 && c.1 < hi)
      clearPosition := hi }

/-- The DRAM at a power-on reset: its contents are unknown, and the clear will start from line 0 (R185). -/
def Dram.powerOn (d : Dram) : Dram := ⟨[], [], [], true, 0, d.epoch + 1⟩

/-- The canonical form of the DRAM's data: equal memories are equal data. -/
def Memory.wf (d : Dram) : Bool :=
  Sparse.wf 0#8 d.cells && Sparse.wf false d.marks && Sparse.wf false d.known
    && d.cells.all (fun c => d.lineKnown (c.1 / 64)) && d.marks.all (fun c => d.lineKnown c.1)
    && d.known.all (fun c => d.clearPosition ≤ c.1)

/-! ## Counters -/

/-- One more, staying at the largest value (R153, R156, R182). -/
def satInc {w : Nat} (c : BitVec w) : BitVec w := if c = BitVec.allOnes w then c else c + 1#w

/-- `k` more, staying at the largest value (R153). -/
def satAdd {w : Nat} (c : BitVec w) (k : Nat) : BitVec w := BitVec.ofNat w (min (c.toNat + k) (2 ^ w - 1))

/-! ## Lists -/

/-- The first element that satisfies `p`, with the list without it. -/
def takeFirst {α : Type} (p : α → Bool) : List α → Option (α × List α)
  | [] => none
  | x :: xs => if p x then some (x, xs) else (takeFirst p xs).map fun (y, ys) => (y, x :: ys)

/-! ## The blocks of the state -/

/-- The pool size in lines that the sampled strap selects (R1). -/
def State.poolLines (s : State) : Nat := if s.msize then Config.lines16GiB else Config.lines8GiB

/-- The line address is in range (R1). -/
def State.inRange (s : State) (l : LineAddr) : Bool := l.toNat < s.poolLines

/-- LUn changed by `f`. -/
def State.updLink (s : State) (n : Agent) (f : LinkUnit → LinkUnit) : State :=
  { s with links := s.links.set n (f s.links[n]) }

/-- Slice `sid` changed by `f`. -/
def State.updSlice (s : State) (sid : SliceId) (f : Slice → Slice) : State :=
  { s with slices := s.slices.set sid (f s.slices[sid]) }

/-- The management unit changed by `f`. -/
def State.updMgmt (s : State) (f : Mgmt → Mgmt) : State := { s with mgmt := f s.mgmt }

/-- The memory channel changed by `f`. -/
def State.updMem (s : State) (f : MemChannel → MemChannel) : State := { s with mem := f s.mem }

/-- The granting-suspended indication (R186). -/
def State.grantingSuspended (s : State) : Bool := s.mgmt.quiesce.state != .normal

/-- The memory channel's own status: memory ready, from the event in which the start-up clear completes, and memory clearing
before it (R133, R183). The memory-ready item that the register window shows follows it, when the management unit takes the
channel's report (R200, log 28). -/
def State.clearDone (s : State) : Bool := !s.mem.dram.clearRunning

/-- An event of the running part: `f` where no reset is applied; while a reset is applied nothing else happens
(R208, log 13). -/
def whileReleased (s : State) (f : State → State) : Host.Outcome State Fault Refusal :=
  .next (if s.resetPin = .released then f s else s)

end Sys2Proof.Machine
end

