-- ==== Sys2Proof/Machine/Flags.lean ====
section
/-!
DEFINITION. The alert items of the management unit and the level of ALERT_N (R207), at the bit positions of offset 0x0C
(12.4).
-/

namespace Sys2Proof.Machine

/-- The link-state change item of agent n. -/
def alertLinkState (n : Agent) : BitVec 19 := 1#19 <<< n.val

/-- The fault item of agent n. -/
def alertFault (n : Agent) : BitVec 19 := 1#19 <<< (8 + n.val)

/-- The quiesce item. -/
def alertQuiesce : BitVec 19 := 1#19 <<< 16

/-- The command completion item. -/
def alertCommand : BitVec 19 := 1#19 <<< 17

/-- The memory uncorrectable item. -/
def alertMemory : BitVec 19 := 1#19 <<< 18

/-- The items that a hard reset keeps: the fault items and the memory uncorrectable item (R209). -/
def alertsKept : BitVec 19 := 0x4FF00#19

/-- An alert item is set; one that is set stays set (R207). -/
def State.raiseAlert (s : State) (item : BitVec 19) : State :=
  s.updMgmt fun m => { m with alerts := m.alerts ||| item }

/-- ALERT_N is driven low while at least one item is set whose mask flag is unmasked (R207). -/
def State.alertLow (s : State) : Bool := (s.mgmt.alerts &&& ~~~s.mgmt.alertMask) != 0#19

end Sys2Proof.Machine
end

