-- ==== Sys2Proof/Machine/Directory.lean ====
section
/-!
DEFINITION. The line directory of one slice: lookup, holding, the recency order, the making, changing and freeing of
entries and reservations (Chapter 1; R29).
-/

namespace Sys2Proof.Machine

/-- What an event at a slice reads from outside the slice: its number, the clock, the response timeout and the
exclusive-on-sole-reader option in force (R199), and the granting-suspended indication (R186). -/
structure Env where
  sid : SliceId
  now : Nat
  timeout : Nat
  exclusive : Bool
  suspended : Bool
  deriving DecidableEq, Repr

/-- The environment of an event at slice `sid`. -/
def State.env (s : State) (sid : SliceId) : Env :=
  ⟨sid, s.now, s.mgmt.responseTimeout.toNat, s.mgmt.exclusive, s.grantingSuspended⟩

/-- The set with index p. -/
def Slice.getSet (s : Slice) (p : Nat) : DirSet := Sparse.get DirSet.empty s.dir p

/-- The slice with set p replaced. -/
def Slice.putSet (s : Slice) (p : Nat) (d : DirSet) : Slice := { s with dir := Sparse.put DirSet.empty s.dir p d }

/-- The OCCUPIED way of the set with the tag, and its entry (R9). -/
def DirSet.findEntry (d : DirSet) (tag : BitVec 15) : Option (WayIdx × Entry) :=
  (List.finRange 8).findSome? fun w =>
    match d.ways[w] with
    | .occupied t e => if t = tag then some (w, e) else none
    | _ => none

/-- The RESERVED way of the set with the tag, and its handle (R9). -/
def DirSet.findReserved (d : DirSet) (tag : BitVec 15) : Option (WayIdx × Handle) :=
  (List.finRange 8).findSome? fun w =>
    match d.ways[w] with
    | .reserved t h => if t = tag then some (w, h) else none
    | _ => none

/-- The lowest-numbered EMPTY way of the set (R110). -/
def DirSet.findEmpty (d : DirSet) : Option WayIdx :=
  (List.finRange 8).find? fun w => d.ways[w] = .empty

/-- The set with way w replaced. -/
def DirSet.setWay (d : DirSet) (w : WayIdx) (x : Way) : DirSet := { d with ways := d.ways.set w x }

/-- Way w at the front of the recency order; the others keep their order (R14). -/
def DirSet.toFront (d : DirSet) (w : WayIdx) : DirSet := { d with recency := w :: d.recency.erase w }

/-- Way w out of the recency order (R15). -/
def DirSet.dropRecency (d : DirSet) (w : WayIdx) : DirSet := { d with recency := d.recency.erase w }

/-- The entry of a line, with its way, where its directory state is not ABSENT (R9). -/
def Slice.entryOf (s : Slice) (l : LineAddr) : Option (WayIdx × Entry) := (s.getSet (setOf l)).findEntry (tagOf l)

/-- The reservation of a line (R9). -/
def Slice.reservationOf (s : Slice) (l : LineAddr) : Option (WayIdx × Handle) :=
  (s.getSet (setOf l)).findReserved (tagOf l)

/-- The record in use that names the line as its request line or its victim line (R8, R29). -/
def Slice.holder (s : Slice) (l : LineAddr) : Option RecIdx :=
  (List.finRange 32).find? fun i =>
    let r := s.records[i]
    r.phase != .free && (r.line = l || r.victim = some l)

/-- The line is held (R8). -/
def Slice.held (s : Slice) (l : LineAddr) : Bool := (s.holder l).isSome

/-- FetchShared, FetchOwned and Promote (Chapter 3). -/
def Kind.caching : Kind → Bool
  | .fetchShared | .fetchOwned | .promote => true
  | .snapshot | .maskedWrite | .recall | .scrub => false

/-- What the way of a freed line becomes, by the record that holds the line (R19). -/
def Slice.freedWay (s : Slice) (sid : SliceId) (l : LineAddr) : Way :=
  match s.holder l with
  | none => .empty
  | some i =>
    let r := s.records[i]
    if r.victim = some l then .reserved (tagOf r.line) (handleOf sid i)
    else if r.kind.caching && r.phase = .gather && !r.originFenced then .reserved (tagOf l) (handleOf sid i)
    else .empty

/-- The line's entry is freed: its way leaves the recency order and becomes EMPTY or RESERVED (R15, R19). Without an
entry nothing changes. -/
def Slice.freeEntry (s : Slice) (sid : SliceId) (l : LineAddr) : Slice :=
  match s.entryOf l with
  | none => s
  | some (w, _) => s.putSet (setOf l) (((s.getSet (setOf l)).setWay w (s.freedWay sid l)).dropRecency w)

/-- The line's entry is replaced in place, its way keeping its place in the recency order. -/
def Slice.rewriteEntry (s : Slice) (l : LineAddr) (e : Entry) : Slice :=
  match s.entryOf l with
  | none => s
  | some (w, _) => s.putSet (setOf l) ((s.getSet (setOf l)).setWay w (.occupied (tagOf l) e))

/-- Agent n is removed from the line's entry; an entry left with no agent is freed (R18, R19). -/
def Slice.removeAgent (s : Slice) (sid : SliceId) (l : LineAddr) (n : Agent) : Slice :=
  match s.entryOf l with
  | none => s
  | some (_, .shared a) =>
    if AgentSet.mem a n then
      (if AgentSet.erase a n = 0#8 then s.freeEntry sid l else s.rewriteEntry l (.shared (AgentSet.erase a n)))
    else s
  | some (_, .owned b) => if b = n then s.freeEntry sid l else s

/-- The agents an entry names. -/
def Entry.agents : Entry → AgentSet
  | .shared a => a
  | .owned b => AgentSet.single b

/-- The role in which an entry names an agent (R68). -/
def Entry.role : Entry → Role
  | .shared _ => .sharer
  | .owned _ => .owner

/-- The grant's edit: a reservation becomes the entry, or the entry is rewritten in place, and the way goes to the front
of the recency order (R14, R16, R17). -/
def Slice.grantEntry (s : Slice) (l : LineAddr) (e : Entry) : Slice :=
  match (s.entryOf l).map Prod.fst <|> (s.reservationOf l).map Prod.fst with
  | none => s
  | some w => s.putSet (setOf l) (((s.getSet (setOf l)).setWay w (.occupied (tagOf l) e)).toFront w)

/-- The RESERVED way that carries the record's handle becomes EMPTY (R20). -/
def Slice.dropReservation (s : Slice) (sid : SliceId) (i : RecIdx) : Slice :=
  let l := s.records[i].line
  match s.reservationOf l with
  | none => s
  | some (w, h) => if h = handleOf sid i then s.putSet (setOf l) ((s.getSet (setOf l)).setWay w .empty) else s

/-- The victim: from the back of the recency order, the first way whose line is not held (R111). -/
def Slice.chooseVictim (s : Slice) (sid : SliceId) (p : Nat) : Option (LineAddr × Entry) :=
  (s.getSet p).recency.reverse.findSome? fun w =>
    match (s.getSet p).ways[w] with
    | .occupied t e => if s.held (lineOf sid p t) then none else some (lineOf sid p t, e)
    | _ => none

/-- The place of a way in the recency order, 0 for the front (R10). -/
def DirSet.recencyPos (d : DirSet) (w : WayIdx) : Nat := d.recency.idxOf w

/-- The result of an Inspect lookup (R10); items without a value are zero (R204). -/
def Slice.inspect (s : Slice) (l : LineAddr) : InspectResult :=
  let d := s.getSet (setOf l)
  match s.entryOf l, s.reservationOf l with
  | some (w, .shared a), _ => ⟨true, false, a, 0, false, w, d.recencyPos w, s.held l⟩
  | some (w, .owned b), _ => ⟨true, true, 0, b, false, w, d.recencyPos w, s.held l⟩
  | none, some (w, _) => ⟨false, false, 0, 0, true, w, 0, s.held l⟩
  | none, none => ⟨false, false, 0, 0, false, 0, 0, s.held l⟩

end Sys2Proof.Machine
end

