-- ==== Sys2Proof/Machine/Transactions.lean ====
section
/-!
DEFINITION. Transaction records of one slice: waits and deadlines, the ordering of memory operations, the start-time
decision of every kind, the settling of waits on a fenced agent, grants and final responses, and a record's end with its
hand-over (Chapters 2 to 6 and 8).
-/

namespace Sys2Proof.Machine

/-! ## Waits and deadlines -/

/-- The wait still awaits its agent: AWAITING REPLY, REPLY AFTER RETURN or AWAITING RETURN (R72, R90). -/
def Wait.live (w : Wait) : Bool :=
  match w.state with
  | .settled _ => false
  | _ => true

/-- The record awaits an agent (R40). -/
def Record.awaits (r : Record) : Bool :=
  r.waits.any Wait.live || r.victimWaits.any Wait.live || (r.phase = .confirm && !r.finished)

/-- The agents the record awaits (R41). -/
def Record.awaited (r : Record) : AgentSet :=
  let a := ((r.waits ++ r.victimWaits).filter Wait.live).foldl (fun a w => AgentSet.insert a w.agent) 0#8
  match r.phase, r.originator, r.finished with
  | .confirm, .agent n _, false => AgentSet.insert a n
  | _, _, _ => a

/-- The deadline runs from the event in which the record begins to await an agent and stops when it awaits none; while
it runs its expiry does not move (R40). -/
def Record.fixDeadline (env : Env) (r : Record) : Record :=
  { r with
    deadline :=
      if r.awaits then (match r.deadline with | .stopped => .running (env.now + env.timeout) | d => d) else .stopped }

/-- Record i changed by `f`, its deadline following (R40). -/
def Slice.updRec (env : Env) (i : RecIdx) (f : Record → Record) (s : Slice) : Slice :=
  { s with records := s.records.set i ((f s.records[i]).fixDeadline env) }

/-- The waits on the record's victim line, or on its request line (R24). -/
def Record.waitsOn (r : Record) (victim : Bool) : List Wait := if victim then r.victimWaits else r.waits

/-- The record with the waits of one of its lines replaced. -/
def Record.setWaits (r : Record) (victim : Bool) (ws : List Wait) : Record :=
  if victim then { r with victimWaits := ws } else { r with waits := ws }

/-- The line those waits are for: the victim line, or the request line. -/
def Record.lineOn (r : Record) (victim : Bool) : LineAddr := if victim then r.victim.getD r.line else r.line

/-- The waits with agent n's wait in a new state. -/
def moveWait (n : Agent) (st : WaitState) (ws : List Wait) : List Wait :=
  ws.map fun w => if w.agent = n then { w with state := st } else w

/-- Record i with agent n's wait in a new state (R72, R73). -/
def Slice.moveWaitOf (env : Env) (i : RecIdx) (victim : Bool) (n : Agent) (st : WaitState) (s : Slice) : Slice :=
  s.updRec env i fun r => r.setWaits victim (moveWait n st (r.waitsOn victim))

/-! ## What a slice sends and orders -/

/-- A message to the link unit of agent n, at the back of its path (R131). -/
def Slice.send (n : Agent) (m : LinkMsg) (s : Slice) : Slice := { s with toLink := s.toLink.set n (s.toLink[n] ++ [m]) }

/-- An operation at the back of the submission list (R173). -/
def Slice.order (op : MemOp) (owner : OpOwner) (s : Slice) : Slice := { s with submission := s.submission ++ [⟨op, owner⟩] }

/-- No operation that record i ordered is still in the list (R173). -/
def Slice.noOps (s : Slice) (i : RecIdx) : Bool := s.submission.all fun o => o.owner != .record i

/-- Record i orders the read of its request line (R57). -/
def Slice.orderRead (env : Env) (i : RecIdx) (s : Slice) : Slice :=
  (s.order (.read s.records[i].line (handleOf env.sid i)) (.record i)).updRec env i fun r => { r with memRead := true }

/-- Record i's final response to its originator (R42). -/
def Slice.respond (i : RecIdx) (resp : Tag → Response) (s : Slice) : Slice :=
  match s.records[i].originator with
  | .agent n t => s.send n (.response (resp t))
  | _ => s

/-- Record i has made its last act: it ends when its operations have left the list (R173). -/
def Slice.finish (env : Env) (i : RecIdx) (s : Slice) : Slice := s.updRec env i fun r => { r with finished := true }

/-! ## Writes of MaskedWrite and Scrub -/

/-- A poison write behind the write, where the write's data carries Poison (R102, R106). -/
def Slice.orderPoisonIf (p : Bool) (l : LineAddr) (i : RecIdx) (s : Slice) : Slice :=
  if p then s.order (.poisonWrite l) (.record i) else s

/-- A MaskedWrite or Scrub record orders the write of its kind and frees the entry if it still exists: over a filled buffer a full
write of the merged line (R104 to R106), otherwise the merge write of R102; a Scrub a full write (R206). -/
def Slice.orderWrite (env : Env) (i : RecIdx) (s : Slice) : Slice :=
  let r := s.records[i]
  match r.write with
  | none => s.updRec env i fun r => { r with ordered := true }
  | some w =>
    let s := match r.kind, r.buffer with
      | .scrub, _ => s.order (.fullWrite r.line w.data) (.record i)
      | _, some b =>
        s.order (.fullWrite r.line ⟨mergeBytes w.mask w.data.bytes b.data.bytes,
          mergedPoison w.data.poison w.mask b.data.poison⟩) (.record i)
      | _, none =>
        (s.order (.mergeWrite r.line w.data.bytes w.mask) (.record i)).orderPoisonIf w.data.poison r.line i
    (s.freeEntry env.sid r.line).updRec env i fun r => { r with ordered := true }

/-! ## The sole-reader rule -/

/-- The plan of a FetchShared that has become the sole reader (R45, R50). -/
def solePlan (exclusive : Bool) (a : Agent) : Plan :=
  if exclusive then .grantOwned else .grantShared (AgentSet.single a)

/-- A FetchShared record's plan made again by the sole-reader rule, with the option value read at its start (R50). -/
def Record.replan (r : Record) : Record :=
  match r.kind, r.originator with
  | .fetchShared, .agent a _ => { r with plan := solePlan r.exclusive a }
  | _, _ => r

/-! ## Waits on a fenced agent -/

/-- The writes and the read of a lost owner (R162), with the differences of R163 for a record whose originator is
fenced. -/
def Slice.lostOwner (env : Env) (i : RecIdx) (victim : Bool) (s : Slice) : Slice :=
  let r := s.records[i]
  if victim then s.order (.poisonWrite (r.lineOn true)) (.record i)
  else
    match r.kind with
    | .fetchShared | .fetchOwned | .promote | .snapshot =>
      let s := s.order (.poisonWrite r.line) (.record i)
      if r.originFenced then s else (s.updRec env i Record.replan).orderRead env i
    | .recall => s.order (.poisonWrite r.line) (.record i)
    | .scrub => s.orderWrite env i
    | .maskedWrite =>
      match r.write with
      | none => s
      | some w =>
        let s :=
          if w.mask = BitVec.allOnes 64 then s.order (.fullWrite r.line w.data) (.record i)
          else
            ((s.order (.poisonWrite r.line) (.record i)).order (.mergeWrite r.line w.data.bytes w.mask) (.record i)).orderPoisonIf
              w.data.poison r.line i
        (s.freeEntry env.sid r.line).updRec env i fun r => { r with ordered := true }

/-- Record i's wait on the fenced agent n, on one of its lines, is settled (R91, R161): a sharer as Gone, removed at
once; an owner whose return was absorbed as Gone; any other owner as a lost owner (R162). -/
def Slice.settleFenced (env : Env) (i : RecIdx) (victim : Bool) (n : Agent) (s : Slice) : Slice :=
  let r := s.records[i]
  match (r.waitsOn victim).find? (fun w => w.agent = n) with
  | none => s
  | some w =>
    match w.role, w.state with
    | .sharer, .awaitingReply =>
      (s.moveWaitOf env i victim n (.settled .gone)).removeAgent env.sid (r.lineOn victim) n
    | .owner, .replyAfterReturn => s.moveWaitOf env i victim n (.settled .gone)
    | .owner, .awaitingReply => (s.moveWaitOf env i victim n (.settled .lost)).lostOwner env i victim
    | .owner, .awaitingReturn => (s.moveWaitOf env i victim n (.settled .lost)).lostOwner env i victim
    | _, _ => s

/-! ## Probes -/

/-- Record i decides a probe to agent n for one of its lines (R68). An agent of the fenced-agent set gets none: its
wait is taken and settled at once (R164). -/
def Slice.probeAgent (env : Env) (i : RecIdx) (victim : Bool) (k : ProbeKind) (role : Role) (s : Slice) (n : Agent) : Slice :=
  let line := s.records[i].lineOn victim
  let s := s.updRec env i fun r => r.setWaits victim (r.waitsOn victim ++ [⟨n, role, k, .awaitingReply⟩])
  if AgentSet.mem s.fenced n then s.settleFenced env i victim n
  else s.send n (.probe ⟨k, handleOf env.sid i, line⟩)

/-- Record i revokes the agents of a set, each in the role the entry gives (R69). -/
def Slice.revokeAll (env : Env) (i : RecIdx) (victim : Bool) (e : Entry) (a : AgentSet) (s : Slice) : Slice :=
  (AgentSet.toList a).foldl (Slice.probeAgent env i victim .revoke e.role) s

/-! ## The start-time decisions -/

/-- A transaction whose decision is to answer Retry at once (R39). -/
def Slice.answerRetry (env : Env) (i : RecIdx) (c : RetryCause) (s : Slice) : Slice :=
  (s.respond i fun t => .retry t c).finish env i

/-- A caching record that finds its line ABSENT finds a way: the lowest EMPTY way becomes RESERVED (R110), or a victim is
chosen and revoked (R111, R112), or the answer is Retry(BUSY); then the read is ordered. -/
def Slice.needWay (env : Env) (i : RecIdx) (plan : Plan) (s : Slice) : Slice :=
  let l := s.records[i].line
  let p := setOf l
  match (s.getSet p).findEmpty with
  | some w =>
    ((s.putSet p ((s.getSet p).setWay w (.reserved (tagOf l) (handleOf env.sid i)))).updRec env i
      fun r => { r with plan := plan }).orderRead env i
  | none =>
    match s.chooseVictim env.sid p with
    | some (v, e) =>
      ((s.updRec env i fun r => { r with plan := plan, victim := some v }).revokeAll env i true e e.agents).orderRead env i
    | none => s.answerRetry env i .busy

/-- FetchShared at its start (R46). -/
def Slice.startFetchShared (env : Env) (i : RecIdx) (a : Agent) (s : Slice) : Slice :=
  let setPlan (p : Plan) (s : Slice) := s.updRec env i fun r => { r with plan := p }
  match s.entryOf s.records[i].line with
  | none => s.needWay env i (solePlan env.exclusive a)
  | some (_, .shared b) =>
    (setPlan (if b = AgentSet.single a then solePlan env.exclusive a else .grantShared (AgentSet.insert b a)) s).orderRead env i
  | some (_, .owned b) =>
    if b = a then s.answerRetry env i .selfOwned
    else (setPlan (.grantShared (AgentSet.insert (AgentSet.single a) b)) s).probeAgent env i false .demote .owner b

/-- FetchOwned, and Promote served as FetchOwned, at its start (R51, R55). -/
def Slice.startFetchOwned (env : Env) (i : RecIdx) (a : Agent) (s : Slice) : Slice :=
  let planned := s.updRec env i fun r => { r with plan := .grantOwned }
  match s.entryOf s.records[i].line with
  | none => s.needWay env i .grantOwned
  | some (_, .shared b) => (planned.revokeAll env i false (.shared b) (AgentSet.erase b a)).orderRead env i
  | some (_, .owned b) =>
    if b = a then s.answerRetry env i .selfOwned else planned.probeAgent env i false .revoke .owner b

/-- Promote at its start: a promotion where the requester is a recorded sharer (R54), otherwise as FetchOwned (R55). -/
def Slice.startPromote (env : Env) (i : RecIdx) (a : Agent) (s : Slice) : Slice :=
  match s.entryOf s.records[i].line with
  | some (_, .shared b) =>
    if AgentSet.mem b a then
      (s.updRec env i fun r => { r with plan := .grantPromote }).revokeAll env i false (.shared b) (AgentSet.erase b a)
    else s.startFetchOwned env i a
  | _ => s.startFetchOwned env i a

/-- Snapshot at its start (R94). -/
def Slice.startSnapshot (env : Env) (i : RecIdx) (a : Agent) (s : Slice) : Slice :=
  let planned := s.updRec env i fun r => { r with plan := .snapshotData }
  match s.entryOf s.records[i].line with
  | some (_, .owned b) =>
    if b = a then s.answerRetry env i .selfOwned else planned.probeAgent env i false .peek .owner b
  | _ => planned.orderRead env i

/-- The record's write selects no byte (R100). -/
def Record.emptyMask (r : Record) : Bool :=
  match r.write with
  | some w => w.mask = 0#64
  | none => true

/-- MaskedWrite at its start: an empty mask is answered at once, before any other test (R100); otherwise R101. In the
ABSENT case the write is ordered in the same event, as the record goes on (R102). -/
def Slice.startMaskedWrite (env : Env) (i : RecIdx) (a : Agent) (s : Slice) : Slice :=
  if s.records[i].emptyMask then (s.respond i fun t => .writeDone t).finish env i
  else
    let planned := s.updRec env i fun r => { r with plan := .writeDone }
    match s.entryOf s.records[i].line with
    | none => planned
    | some (_, .shared b) => planned.revokeAll env i false (.shared b) b
    | some (_, .owned b) => if b = a then s.answerRetry env i .selfOwned else planned.probeAgent env i false .revoke .owner b

/-- Scrub at its start (R205). -/
def Slice.startScrub (env : Env) (i : RecIdx) (s : Slice) : Slice :=
  match s.entryOf s.records[i].line with
  | none => s
  | some (_, e) => s.revokeAll env i false e e.agents

/-- A waiter's transaction starts in record i: every field is cleared and taken from the request, the line is held, and
the start-time decision of the kind is taken (R26, R44). An originator and kind that no waiter has (R31) decide
nothing. -/
def Slice.startRecord (env : Env) (i : RecIdx) (w : Waiter) (s : Slice) : Slice :=
  let r : Record :=
    { Record.free with
      phase := .gather
      originator := w.originator
      kind := w.kind
      line := w.line
      write := w.write
      exclusive := w.kind = .fetchShared && env.exclusive }
  let s := { s with records := s.records.set i r }
  match w.originator, w.kind with
  | .agent a _, .fetchShared => s.startFetchShared env i a
  | .agent a _, .fetchOwned => s.startFetchOwned env i a
  | .agent a _, .promote => s.startPromote env i a
  | .agent a _, .snapshot => s.startSnapshot env i a
  | .agent a _, .maskedWrite => s.startMaskedWrite env i a
  | .management, .scrub => s.startScrub env i
  | _, _ => s.finish env i

/-! ## Records going on -/

/-- Every victim wait is SETTLED while a victim line is held: the eviction completes (R114). -/
def Record.evictionDone (r : Record) : Bool := r.phase != .free && r.victim.isSome && !(r.victimWaits.any Wait.live)

/-- The eviction of record i completes: V's entry is freed into the record's reservation, V is released (R114, steps 1
and 2). -/
def Slice.completeEviction (env : Env) (i : RecIdx) (s : Slice) : Slice :=
  (s.freeEntry env.sid (s.records[i].lineOn true)).updRec env i fun r => { r with victim := none, victimWaits := [] }

/-- The grant condition of R59. -/
def Record.grantReady (r : Record) : Bool :=
  r.phase = .gather && r.kind.caching && !r.finished && !r.awaits && !r.memRead && r.victim.isNone
    && (r.buffer.isSome || r.plan = .grantPromote) && !r.originFenced

/-- The grant of record i is sent, the entry edit is made, and the record enters CONFIRM with a new deadline, its buffer
dropped (R60, R61). -/
def Slice.sendGrant (env : Env) (i : RecIdx) (s : Slice) : Slice :=
  let r := s.records[i]
  let h := handleOf env.sid i
  match r.originator, r.plan, r.buffer with
  | .agent a t, .grantShared b, some d => go r.line (.shared b) a (.grantShared t h d.data) s
  | .agent a t, .grantOwned, some d => go r.line (.owned a) a (.grantOwned t h d.data) s
  | .agent a t, .grantPromote, _ => go r.line (.owned a) a (.grantPromote t h) s
  | _, _, _ => s.finish env i
where
  go (l : LineAddr) (e : Entry) (a : Agent) (m : Response) (s : Slice) : Slice :=
    ((s.send a (.response m)).grantEntry l e).updRec env i fun r =>
      { r with phase := .confirm, buffer := none, deadline := .stopped }

/-- A caching record whose originator is fenced and that took a Dirty reply to its Revoke writes that data at its end
(R62). -/
def Record.lastWrite (r : Record) : Option Poisoned :=
  if r.waits.any (fun w => w.role = .owner && w.probe = .revoke && w.state = .settled .dirty) then r.buffer.map Buffer.data
  else none

/-- The edit that a caching record whose originator is fenced makes at its end, in place of the grant's (R62, R163). -/
def Slice.fencedEdit (env : Env) (i : RecIdx) (s : Slice) : Slice :=
  let l := s.records[i].line
  s.records[i].waits.foldl (fun s w =>
    match w.role, w.state, w.probe with
    | .sharer, .settled .clean, _ => s.removeAgent env.sid l w.agent
    | .owner, .settled .clean, .demote => s.rewriteEntry l (.shared (AgentSet.single w.agent))
    | .owner, .settled .dirty, .demote => s.rewriteEntry l (.shared (AgentSet.single w.agent))
    | .owner, .settled .clean, .revoke => s.freeEntry env.sid l
    | .owner, .settled .dirty, .revoke => s.freeEntry env.sid l
    | .owner, .settled .lost, _ => s.freeEntry env.sid l
    | _, _, _ => s) s

/-- The edit of a recall at its end: the revoked agents still named are removed (R127), and so is every agent of the
fenced-agent set that the entry still names (R166, log 15). -/
def Slice.recallEdit (env : Env) (i : RecIdx) (s : Slice) : Slice :=
  let r := s.records[i]
  let s := (AgentSet.toList r.revokeSet).foldl (fun s n => s.removeAgent env.sid r.line n) s
  match s.entryOf r.line with
  | some (_, .owned b) =>
    if AgentSet.mem s.fenced b then (s.order (.poisonWrite r.line) .engine).freeEntry env.sid r.line else s
  | some (_, .shared _) => (AgentSet.toList s.fenced).foldl (fun s n => s.removeAgent env.sid r.line n) s
  | none => s

/-- A job that a recall served has one recall in flight less (R127). -/
def Job.recallEnded (r : Record) (j : Job) : Job :=
  let served := match j.kind with
    | .drain n => AgentSet.mem r.servesDrain n
    | .fence _ => false
    | .quiesce _ => r.servesQuiesce
  if served then { j with inFlight := j.inFlight - 1 } else j

/-- A waiter whose line is not held (R37). -/
def Slice.eligible (s : Slice) (w : Waiter) : Bool := !s.held w.line

/-- Record i ends (R28): its reservation, if any, becomes EMPTY (R20); the line is released; the record is handed over to
the oldest waiter for the line (R36), or freed and given to the oldest waiter whose line is not held (R37); the jobs a
recall served are told (R127). -/
def Slice.endRecord (env : Env) (i : RecIdx) (s : Slice) : Slice :=
  let r := s.records[i]
  let s := s.dropReservation env.sid i
  let s := { s with
    records := s.records.set i Record.free
    engine := { s.engine with jobs := s.engine.jobs.map (Job.recallEnded r) } }
  match takeFirst (fun w => w.line = r.line) s.waitQueue with
  | some (w, q) => Slice.startRecord env i w { s with waitQueue := q }
  | none =>
    match takeFirst s.eligible s.waitQueue with
    | some (w, q) => Slice.startRecord env i w { s with waitQueue := q }
    | none => s

/-- Every wait of a MaskedWrite is SETTLED, or its owner's return is absorbed: the base value is known and the write is
ordered (R103 to R105). -/
def Record.baseKnown (r : Record) : Bool :=
  r.waits.all fun w => !w.live || w.state = .replyAfterReturn

/-- What record i does next by itself in this event, if anything: its grant, final response, last write or end. -/
def Slice.progress (env : Env) (i : RecIdx) (s : Slice) : Option Slice :=
  let r := s.records[i]
  if r.phase = .free then none
  else if r.finished then (if s.noOps i then some (s.endRecord env i) else none)
  else if r.phase = .confirm then none
  else
    match r.kind with
    | .fetchShared | .fetchOwned | .promote =>
      if r.grantReady then some (s.sendGrant env i)
      else if r.originFenced && !r.awaits && !r.memRead && r.victim.isNone then
        match r.lastWrite, r.ordered with
        | some d, false =>
          some ((s.order (.fullWrite r.line d) (.record i)).updRec env i fun r => { r with ordered := true })
        | _, _ => if s.noOps i then some ((s.fencedEdit env i).endRecord env i) else none
      else none
    | .snapshot =>
      if r.awaits || r.memRead then none
      else if r.originFenced then some (s.finish env i)
      else
        match r.buffer with
        | some b => some ((s.respond i fun t => .snapshotData t b.data).finish env i)
        | none => none
    | .maskedWrite =>
      if !r.ordered then (if r.baseKnown then some (s.orderWrite env i) else none)
      else if r.awaits || !s.noOps i then none
      else some ((if r.originFenced then s else s.respond i fun t => .writeDone t).finish env i)
    | .scrub =>
      if r.awaits then none
      else if !r.ordered then some (s.orderWrite env i)
      else if !s.noOps i then none
      else some (Slice.finish env i { s with toEngine := s.toEngine ++ [⟨.done, none⟩] })
    | .recall =>
      if r.awaits || !s.noOps i then none
      else some ((s.recallEdit env i).endRecord env i)

end Sys2Proof.Machine
end

