-- ==== Sys2Proof/Machine/Sweep.lean ====
section
/-!
DEFINITION. The record arbiter and the sweep engine of a slice, and the loop that lets a slice go on within one event
until nothing more follows from it (R36 to R38, R117 to R128, R165, R166, R191).
-/

namespace Sys2Proof.Machine

/-! ## Handing out FREE records -/

/-- The FREE records. -/
def Slice.freeRecords (s : Slice) : List RecIdx := (List.finRange 32).filter fun i => s.records[i].phase = .free

/-- One of the FREE records, if there is one: which of several is a free value (R32, log 4). -/
def Slice.takeFree (sid : SliceId) (s : Slice) : Option (RecIdx × Slice) :=
  match s.freeRecords with
  | [] => none
  | [i] => some (i, s)
  | i :: j :: is =>
    let l := i :: j :: is
    some (l[Config.recordChoice sid s.picks % l.length]'(Nat.mod_lt _ (by simp [l])), { s with picks := s.picks + 1 })

/-- The arbiter acts: the oldest eligible waiter starts in a FREE record, if both exist (R38). -/
def Slice.arbitrate (env : Env) (s : Slice) : Option Slice :=
  match takeFirst s.eligible s.waitQueue with
  | none => none
  | some (w, q) => (s.takeFree env.sid).map fun (i, s) => Slice.startRecord env i w { s with waitQueue := q }

/-! ## Jobs -/

/-- The job still walks (R117). -/
def Job.walking (j : Job) : Bool := 0 < j.setsLeft

/-- The job is applied at this visit, and is a FENCE job for one of the agents (R121). -/
def SweepEngine.fenceAgents (e : SweepEngine) : List Agent :=
  e.jobs.filterMap fun j => match j.kind, j.applied with
    | .fence n, true => some n
    | _, _ => none

/-- The agents of the DRAIN jobs applied at this visit (R121). -/
def SweepEngine.drainAgents (e : SweepEngine) : AgentSet :=
  e.jobs.foldl (fun a j => match j.kind, j.applied with
    | .drain n, true => AgentSet.insert a n
    | _, _ => a) 0#8

/-- The agents of the active DRAIN jobs, applied at this visit or not (R117, R125). -/
def SweepEngine.drainJobs (e : SweepEngine) : AgentSet :=
  e.jobs.foldl (fun a j => match j.kind with
    | .drain n => AgentSet.insert a n
    | _ => a) 0#8

/-- A QUIESCE job is applied at this visit (R121). -/
def SweepEngine.quiesceApplied (e : SweepEngine) : Bool :=
  e.jobs.any fun j => match j.kind with
    | .quiesce _ => j.applied
    | _ => false

/-- A job joins: 2048 sets left, no recall in flight, not applied at the current set where the engine is WAITING FOR
RECORD; an IDLE engine begins a visit at its position (R118, R120). -/
def Slice.joinJob (k : JobKind) (s : Slice) : Slice :=
  let e := s.engine
  let late := e.visit = .waitingForRecord || e.visit = .leaving
  { s with engine := { e with
      jobs := e.jobs ++ [⟨k, Config.setsPerSlice, 0, false, late⟩]
      visit := if e.visit = .idle then .waitingAtSet else e.visit } }

/-- The DRAIN job of agent n is removed, and the recalls it started are counted against no job (R119). -/
def Slice.dropDrainJob (n : Agent) (s : Slice) : Slice :=
  { s with
    engine := { s.engine with jobs := s.engine.jobs.filter fun j => j.kind != .drain n }
    records := s.records.map fun r => { r with servesDrain := AgentSet.erase r.servesDrain n } }

/-- The QUIESCE job is removed, and the recalls it started are counted against no job (R119). -/
def Slice.dropQuiesceJob (s : Slice) : Slice :=
  { s with
    engine := { s.engine with jobs := s.engine.jobs.filter fun j => match j.kind with
      | .quiesce _ => false
      | _ => true }
    records := s.records.map fun r => { r with servesQuiesce := false } }

/-- A removal that leaves no walking job makes the engine IDLE at its position, without pending lines; its visit is over
(R119). -/
def Slice.idleIfDone (s : Slice) : Slice :=
  if s.engine.jobs.any Job.walking then s
  else
    { s with
      engine := { s.engine with visit := .idle, pendingLines := [] }
      records := s.records.map fun r => { r with thisVisit := false } }

/-- The first job that completes: no sets left and no recalls in flight (R124). -/
def Slice.completeJob (s : Slice) : Option Slice :=
  match takeFirst (fun j => !j.walking && j.inFlight = 0) s.engine.jobs with
  | none => none
  | some (j, js) =>
    let s := { s with engine := { s.engine with jobs := js } }
    some (match j.kind with
      | .drain n => (Slice.send n .drainDone { s with draining := AgentSet.erase s.draining n })
      | .fence n => s.send n .fenceDone
      | .quiesce k => { s with toController := s.toController ++ [k] })

/-! ## The walk -/

/-- Set p is settled: no way of it is RESERVED, and no line of it is held by a record other than a recall that the engine
started during the current visit (R120). -/
def Slice.settledSet (s : Slice) (p : Nat) : Bool :=
  ((List.finRange 8).all fun w => match (s.getSet p).ways[w] with
    | .reserved _ _ => false
    | _ => true)
  && (List.finRange 32).all fun i =>
    let r := s.records[i]
    r.phase = .free || (r.kind = .recall && r.thisVisit)
      || !(setOf r.line = p || (match r.victim with | some v => setOf v = p | none => false))

/-- The action of a FENCE job for agent n on a line's entry (R165). -/
def Slice.fenceAction (sid : SliceId) (l : LineAddr) (s : Slice) (n : Agent) : Slice :=
  match s.entryOf l with
  | some (_, .shared _) => s.removeAgent sid l n
  | some (_, .owned b) => if b = n then (s.order (.poisonWrite l) .engine).freeEntry sid l else s
  | none => s

/-- An applied DRAIN or QUIESCE job concerns the line's entry (R121, R122). -/
def Slice.concerned (s : Slice) (l : LineAddr) : Bool :=
  match s.entryOf l with
  | none => false
  | some (_, e) => s.engine.quiesceApplied || (e.agents &&& s.engine.drainAgents) != 0#8

/-- The engine takes one way of the settled set: the fence actions first, and then the line becomes pending where a
recall is needed (R121). -/
def Slice.applyAtWay (sid : SliceId) (p : Nat) (s : Slice) (w : WayIdx) : Slice :=
  match (s.getSet p).ways[w] with
  | .occupied t _ =>
    let l := lineOf sid p t
    if s.held l then s
    else
      let s := s.engine.fenceAgents.foldl (Slice.fenceAction sid l) s
      if s.concerned l then { s with engine := { s.engine with pendingLines := s.engine.pendingLines ++ [l] } } else s
  | _ => s

/-- The engine applies its jobs at its settled set (R121). -/
def Slice.applyJobs (sid : SliceId) (s : Slice) : Slice :=
  let s := { s with engine := { s.engine with
    jobs := s.engine.jobs.map (fun j => { j with applied := j.applied || (j.walking && !j.late) })
    pendingLines := [] } }
  let s := (List.finRange 8).foldl (Slice.applyAtWay sid s.engine.position) s
  { s with engine := { s.engine with visit := if s.engine.pendingLines = [] then .leaving else .waitingForRecord } }

/-- A recall of a line starts in record i: the revoke set is computed from the applied jobs, the agents are revoked, and the recall
is counted at the jobs it serves, which are the QUIESCE job if applied and each DRAIN job whose agent is in the revoke set, applied
or not (R125). -/
def Slice.startRecall (env : Env) (i : RecIdx) (l : LineAddr) (s : Slice) : Slice :=
  match s.entryOf l with
  | none => s
  | some (_, e) =>
    let quiesce := s.engine.quiesceApplied
    let revoke := if quiesce then e.agents else e.agents &&& s.engine.drainAgents
    let r : Record :=
      { Record.free with
        phase := .gather
        originator := .sweep
        kind := .recall
        line := l
        revokeSet := revoke
        servesDrain := revoke &&& s.engine.drainJobs
        servesQuiesce := quiesce
        thisVisit := true }
    let count (j : Job) : Job :=
      let served := match j.kind with
        | .drain n => AgentSet.mem revoke n
        | .fence _ => false
        | .quiesce _ => j.applied
      if served then { j with inFlight := j.inFlight + 1 } else j
    let s := { s with
      records := s.records.set i r
      engine := { s.engine with jobs := s.engine.jobs.map count } }
    s.revokeAll env i false e revoke

/-- The engine, WAITING FOR RECORD, has a record where one is FREE and no waiter is eligible, and examines its oldest
pending line (R122). -/
def Slice.examine (env : Env) (s : Slice) : Option Slice :=
  match s.engine.pendingLines with
  | [] => some { s with engine := { s.engine with visit := .leaving } }
  | l :: ls =>
    if s.waitQueue.any s.eligible then none
    else
      match s.takeFree env.sid with
      | none => none
      | some (i, s') =>
        if s.held l then some { s with engine := { s.engine with visit := .waitingAtSet, pendingLines := [] } }
        else if s.concerned l then some (Slice.startRecall env i l { s' with engine := { s'.engine with pendingLines := ls } })
        else some { s with engine := { s.engine with pendingLines := ls } }

/-- The engine leaves its set: the applied jobs have one set less, the marks are cleared, the position moves on, and the
engine travels to the next set or becomes IDLE (R123). -/
def Slice.leaveSet (s : Slice) : Slice :=
  let jobs := s.engine.jobs.map fun j =>
    { j with setsLeft := if j.applied then j.setsLeft - 1 else j.setsLeft, applied := false, late := false }
  { s with
    engine := { s.engine with
      jobs := jobs
      position := (s.engine.position + 1) % Config.setsPerSlice
      visit := if jobs.any Job.walking then .travelling else .idle }
    records := s.records.map fun r => { r with thisVisit := false } }

/-- No poison write that a FENCE job ordered is still in the list (R173). -/
def Slice.noEngineOps (s : Slice) : Bool := s.submission.all fun o => o.owner != .engine

/-- Every record is FREE and the wait queue is empty (R191). -/
def Slice.atRest (s : Slice) : Bool := s.freeRecords.length = 32 && s.waitQueue.isEmpty

/-- A slice with a pending quiesce sweep that is at rest adds its QUIESCE job (R191). -/
def Slice.quiesceJoin (s : Slice) : Option Slice :=
  match s.pendingQuiesce with
  | none => none
  | some k => if s.atRest then some (Slice.joinJob (.quiesce k) { s with pendingQuiesce := none }) else none

/-- The engine's next act on its walk: it applies its jobs at a settled set (R120, R121), examines a pending line (R122),
or leaves its set (R123, R173). -/
def Slice.walkAct (env : Env) (s : Slice) : Option Slice :=
  match s.engine.visit with
  | .waitingAtSet => if s.settledSet s.engine.position then some (s.applyJobs env.sid) else none
  | .waitingForRecord => s.examine env
  | .leaving => if s.noEngineOps then some s.leaveSet else none
  | .idle => none
  | .travelling => none

/-- What the sweep engine does next in this event, if anything: a job completes (R124), the engine walks, or the QUIESCE
job joins (R191). The rules give no order between the engine's application at a settled set (R118, R120) and the joining of
the QUIESCE job, where one event allows both; the engine walks first and the job joins last (DESIGN CHOICE, log 17). -/
def Slice.engineAct (env : Env) (s : Slice) : Option Slice :=
  match s.completeJob with
  | some s' => some s'
  | none =>
    match s.walkAct env with
    | some s' => some s'
    | none => s.quiesceJoin

/-! ## The slice goes on within one event -/

/-- The first record whose eviction completes. -/
def Slice.findEviction (s : Slice) : Option RecIdx := (List.finRange 32).find? fun i => s.records[i].evictionDone

/-- What the first record that can go on does. -/
def Slice.progressAny (env : Env) (s : Slice) : Option Slice := (List.finRange 32).findSome? fun i => s.progress env i

/-- Within one event the slice goes on until nothing more follows: an eviction that completes releases its victim line and
wakes the arbiter (R114); a woken arbiter starts waiters while it can (R38); then a record sends its grant or response,
orders its last write, or ends and passes on (R59, R99, R107, R127, R36, R37); then, where `eng` is set, the engine acts.
`fuel` bounds the number of acts (log 17). -/
def Slice.settle (env : Env) (eng : Bool) : Nat → Bool → Slice → Slice
  | 0, _, s => s
  | fuel + 1, wake, s =>
    match s.findEviction with
    | some i => Slice.settle env eng fuel true (s.completeEviction env i)
    | none =>
      if wake then
        match s.arbitrate env with
        | some s' => Slice.settle env eng fuel true s'
        | none => Slice.settle env eng fuel false s
      else
        match s.progressAny env with
        | some s' => Slice.settle env eng fuel false s'
        | none =>
          if eng then
            match s.engineAct env with
            | some s' => Slice.settle env eng fuel false s'
            | none => s
          else s

/-- More acts than one event can hold: every record goes on a bounded number of times, and every further start takes a
waiter or a pending line (log 17). -/
def Slice.fuel (s : Slice) : Nat := 1024 + 64 * s.waitQueue.length

/-- The slice goes on after an event. `wake`: waiters were removed, so the arbiter acts first (R34, R38). -/
def Slice.goOn (env : Env) (wake : Bool) (s : Slice) : Slice := Slice.settle env true s.fuel wake s

end Sys2Proof.Machine
end

