-- ==== Sys2Proof/Machine/LinkOps.lean ====
section
/-!
DEFINITION. What a link unit does: its queues, tags and reservations, the opening of a session, the fence event, the drain,
the data check and the taking of messages from the request channel (Chapters 7 and 8).
-/

namespace Sys2Proof.Machine

/-! ## Small parts of a link unit -/

/-- ONLINE, DRAINING(SETTLING) or DRAINING(SWEEPING). -/
def LinkState.session : LinkState → Bool
  | .online | .drainingSettling | .drainingSweeping => true
  | .offline | .fencedSweeping | .fencedSwept => false

/-- DRAINING in either sub-state. -/
def LinkState.draining : LinkState → Bool
  | .drainingSettling | .drainingSweeping => true
  | .offline | .online | .fencedSweeping | .fencedSwept => false

/-- FENCED in either sub-state. -/
def LinkState.fenced : LinkState → Bool
  | .fencedSweeping | .fencedSwept => true
  | .offline | .online | .drainingSettling | .drainingSweeping => false

/-- The link unit holds its link down: while FENCED, and while a reset is applied (R132). -/
def State.linkHeldDown (s : State) (n : Agent) : Bool := s.resetPin != .released || s.links[n].state.fenced

/-- A message at the back of the response channel's queue (R146). -/
def LinkUnit.push (m : Outbound) (u : LinkUnit) : LinkUnit := { u with responses := u.responses ++ [m] }

/-- A notice to each of the four slices (R131). -/
def LinkUnit.notifyAll (x : Notice) (u : LinkUnit) : LinkUnit := { u with notices := u.notices.map (· ++ [x]) }

/-- A message on the path to one slice (R131). -/
def LinkUnit.route (sid : SliceId) (m : SliceMsg) (u : LinkUnit) : LinkUnit :=
  { u with toSlice := u.toSlice.set sid (u.toSlice[sid] ++ [m]) }

/-- A change of link state, reported to the management unit in its event (7.2, R131). -/
def LinkUnit.enter (st : LinkState) (u : LinkUnit) : LinkUnit :=
  { u with state := st, reports := u.reports ++ [⟨st, u.cls⟩] }

/-- A message is discarded and counted (R142, R153). -/
def LinkUnit.discard (u : LinkUnit) : LinkUnit := { u with discarded := satInc u.discarded }

/-- The messages that wait in the request channel when a hold of the link begins are taken, discarded and counted in the event that
begins it (R132, R142, log 10). -/
def LinkUnit.discardWaiting (u : LinkUnit) : LinkUnit :=
  { u with requestChannel := [], discarded := satAdd u.discarded u.requestChannel.length }

/-- The event of a message that LUn takes from one of its incoming channels. While hard reset is applied the link is held down, and
a message received before the hold is taken and discarded (R132); `received` says that it comes from the link and does not wait
in the model's list. In power-on reset the counters stay cleared (R154, log 10). -/
def messageEvent (n : Agent) (received : Bool) (s : State) (f : State → State) : Host.Outcome State Fault Refusal :=
  .next (match s.resetPin with
    | .released => f s
    | .hard => if received then s.updLink n LinkUnit.discard else s
    | .powerOn => s)

/-- Every entry of the tag table is FREE (R149, R150). -/
def LinkUnit.tagsFree (u : LinkUnit) : Bool := u.tags.all (!·)

/-- The tag's entry of the tag table set (R139, R140). -/
def LinkUnit.setTag (t : Tag) (b : Bool) (u : LinkUnit) : LinkUnit := { u with tags := u.tags.set t b }

/-! ## Drain (R148 to R150) -/

/-- The settling condition: every tag FREE and the confirm set empty. Where it holds in DRAINING(SETTLING), the link
enters DRAINING(SWEEPING) and sends drain sweep notices (R149). -/
def LinkUnit.settleDrain (u : LinkUnit) : LinkUnit :=
  if u.state = .drainingSettling && u.tagsFree && u.confirm = [] then
    ({ u with slicesReported := 0#4 }.enter .drainingSweeping).notifyAll .drainSweep
  else u

/-- A drain starts: DRAINING(SETTLING), drain notices, and the settling condition is tested (R148, R149). -/
def LinkUnit.startDrain (u : LinkUnit) : LinkUnit := ((u.enter .drainingSettling).notifyAll .drain).settleDrain

/-- Where all four slices have reported and every tag is FREE in DRAINING(SWEEPING), Farewell is queued and the link
enters OFFLINE (R150). A probe that is still queued stays so, and is delivered in the next session, where R70 and R147 name its delivery
in ONLINE and DRAINING and the emptying of the queue at the fence event and the resets alone (DESIGN CHOICE, log 32); so does a
grant (log 30). -/
def LinkUnit.farewell (u : LinkUnit) : LinkUnit :=
  if u.state = .drainingSweeping && u.slicesReported = SliceSet.all && u.tagsFree then
    ({ u with cls := .unset, heldHello := none, confirm := [], slicesReported := 0#4 }.push (.control .farewell)).enter .offline
  else u

/-! ## The fence event (R152, R156, R157) -/

/-- A fault is counted: the count goes up by one, and the record is written if it is empty (R156). -/
def LinkUnit.countFault (f : FaultRecord) (u : LinkUnit) : LinkUnit :=
  { u with faultCount := satInc u.faultCount, faultRecord := if u.faultRecord = none then some f else u.faultRecord }

/-- The fence event's changes at the link unit (R152, R157). The hold begins here, and what waits in the request channel is discarded
and counted (R132, R142, log 10). -/
def LinkUnit.fence (f : FaultRecord) (u : LinkUnit) : LinkUnit :=
  (({ (u.countFault f).discardWaiting with
      responses := []
      probes := []
      reservations := 0
      confirm := []
      slicesReported := 0#4
      tags := Vector.replicate 16 false }).enter .fencedSweeping).notifyAll .fence

/-- A fence cause is taken at LUn: a fence event in ONLINE and DRAINING (R157), counted in FENCED (R158), without effect in
OFFLINE (R152). Each counted fault sets the agent's fault alert item (R156). -/
def State.takeCause (n : Agent) (f : FaultRecord) (s : State) : State :=
  if s.links[n].state.session then (s.updLink n (LinkUnit.fence f)).raiseAlert (alertFault n)
  else if s.links[n].state.fenced then (s.updLink n (LinkUnit.countFault f)).raiseAlert (alertFault n)
  else s

/-- A protocol fault found at the link unit: the message's kind on its channel, its tag and line where it carries them
(R137, R155). -/
def protocolFault (c : Channel) (code : BitVec 6) (line : Option LineAddr) (tag : Option Tag) : FaultRecord :=
  ⟨.protocol, some (c, code), line, tag⟩

/-- The fault of a message that fails the form test: the code as received, the channel it came on, and the tag and line
of the header where the kind would carry them (R210). -/
def formFault (m : MalformedMsg) : FaultRecord :=
  let code := headerKind m.header
  protocolFault m.channel code
    (if carriesLine m.channel code then some (headerLine m.header) else none)
    (if carriesTag m.channel code then some (headerTag m.header) else none)

/-! ## Opening a session (R133, R134) -/

/-- The class that a Hello's class value declares (12.2); any other value is undefined. -/
def helloClass (c : BitVec 3) : Option AgentClass :=
  if c = 1#3 then some .caching else if c = 2#3 then some .noncaching else none

/-- Agent enable of agent n (R199). -/
def State.enabled (s : State) (n : Agent) : Bool := s.mgmt.agentEnable.getLsbD n

/-- Welcome: the session parameters are sent, the class recorded, the tag table, the confirm set and the failure count
cleared, and the link becomes ONLINE (R133). -/
def State.welcome (n : Agent) (c : AgentClass) (s : State) : State :=
  s.updLink n fun u =>
    ({ u with
        cls := c
        heldHello := none
        tags := Vector.replicate 16 false
        confirm := []
        consecutive := 0 }.push (.control (.welcome s.poolLines s.mgmt.responseTimeout))).enter .online

/-- A Welcome or HelloRefused of the link is still in the response queue (R133). -/
def LinkUnit.helloAnswered (u : LinkUnit) : Bool :=
  u.responses.any fun m => match m with
    | .control (.welcome _ _) => true
    | .control .helloRefusedDisabled => true
    | .control .helloRefusedRevision => true
    | _ => false

/-- A Hello taken in OFFLINE with none held and no answer queued: revision (an undefined class counts as a wrong one,
R210), agent enable, memory ready (R133). -/
def State.openSession (n : Agent) (m : HelloMsg) (s : State) : State :=
  match helloClass m.cls with
  | none => s.updLink n (LinkUnit.push (.control .helloRefusedRevision))
  | some c =>
    if m.revision ≠ 1#4 then s.updLink n (LinkUnit.push (.control .helloRefusedRevision))
    else if !s.enabled n then s.updLink n (LinkUnit.push (.control .helloRefusedDisabled))
    else if !s.clearDone then s.updLink n fun u => { u with heldHello := some c }
    else s.welcome n c

/-! ## The data check (R144, R145) -/

/-- A DataRetry for a Dirty reply goes on the reply-retry list, which holds no handle twice: where one for the handle is still
pending, it stands for both (R144, R146, log 29). -/
def LinkUnit.queueReplyRetry (h : Handle) (u : LinkUnit) : LinkUnit :=
  if u.responses.contains (.replyRetry h) then u else u.push (.replyRetry h)

/-- A failed data check: counted, and answered as `retry` gives, or at the sixteenth in a row a fence with cause DATA_CHECK and
no answer (R144, R145). -/
def State.dataCheckFailed (n : Agent) (f : FaultRecord) (retry : LinkUnit → LinkUnit) (s : State) : State :=
  let s := s.updLink n fun u =>
    { u with dataCheckFailures := satInc u.dataCheckFailures, consecutive := min (u.consecutive + 1) Config.dataCheckLimit }
  if s.links[n].consecutive = Config.dataCheckLimit then s.takeCause n f else s.updLink n retry

/-- A passed data check resets the consecutive-failure count (R145). -/
def State.dataCheckPassed (n : Agent) (s : State) : State := s.updLink n fun u => { u with consecutive := 0 }

/-! ## Messages of the request channel (R136, R137) -/

/-- The message's tag, for the seven tagged kinds (R130). -/
def ReqMsg.tag : ReqMsg → Option Tag
  | .fetchShared m | .fetchOwned m | .promote m | .snapshot m | .returnClean m => some m.tag
  | .maskedWrite m => some m.tag
  | .returnDirty m => some m.tag
  | .hello _ | .depart | .flushDone | .malformed _ => none

/-- The message's line. -/
def ReqMsg.line : ReqMsg → Option LineAddr
  | .fetchShared m | .fetchOwned m | .promote m | .snapshot m | .returnClean m => some m.line
  | .maskedWrite m => some m.line
  | .returnDirty m => some m.line
  | .hello _ | .depart | .flushDone | .malformed _ => none

/-- The message's kind code (12.2). -/
def ReqMsg.code : ReqMsg → BitVec 6
  | .hello _ => kindHello
  | .depart => kindDepart
  | .flushDone => kindFlushDone
  | .fetchShared _ => kindFetchShared
  | .fetchOwned _ => kindFetchOwned
  | .promote _ => kindPromote
  | .snapshot _ => kindSnapshot
  | .maskedWrite _ => kindMaskedWrite
  | .returnDirty _ => kindReturnDirty
  | .returnClean _ => kindReturnClean
  | .malformed m => headerKind m.header

/-- The link unit takes a tagged message only while a tag place is free, in ONLINE, in DRAINING, and in OFFLINE with a
Hello held (R136). -/
def LinkUnit.canTake (u : LinkUnit) (m : ReqMsg) : Bool :=
  m.tag.isNone || u.reservations < Config.tagPlaces
    || !(u.state.session || (u.state = .offline && u.heldHello.isSome))

/-- The kinds an agent of the class may send on the request channel (R138). -/
def AgentClass.allows (c : AgentClass) : ReqMsg → Bool
  | .snapshot _ | .maskedWrite _ | .hello _ | .depart => true
  | .fetchShared _ | .fetchOwned _ | .promote _ | .returnDirty _ | .returnClean _ | .flushDone => c = .caching
  | .malformed _ => true

/-- A return, ReturnDirty or ReturnClean. -/
def ReqMsg.isReturn : ReqMsg → Bool
  | .returnDirty _ | .returnClean _ => true
  | _ => false

/-- What the link unit routes to the slice for an accepted message (R131). -/
def ReqMsg.routed : ReqMsg → Option SliceMsg
  | .fetchShared m => some (.request .fetchShared m.tag m.line none)
  | .fetchOwned m => some (.request .fetchOwned m.tag m.line none)
  | .promote m => some (.request .promote m.tag m.line none)
  | .snapshot m => some (.request .snapshot m.tag m.line none)
  | .maskedWrite m => some (.request .maskedWrite m.tag m.line (some m.write))
  | .returnDirty m => some (.returned m.tag m.line (some m.data))
  | .returnClean m => some (.returned m.tag m.line none)
  | .hello _ | .depart | .flushDone | .malformed _ => none

/-- The data check of the message: none where the kind carries none, otherwise whether it passes (R144). -/
def ReqMsg.checked : ReqMsg → Option Bool
  | .maskedWrite m => some (m.check = maskedCheck m.write)
  | .returnDirty m => some (m.check = dataCheck m.data.bytes)
  | _ => none

/-- Steps 5 to 8 of R137 for a tagged message: the tag, DRAINING, the range, and the routing. -/
def State.routeTagged (n : Agent) (m : ReqMsg) (tag : Tag) (line : LineAddr) (s : State) : State :=
  let u := s.links[n]
  if u.tags[tag] then s.takeCause n (protocolFault .request m.code (some line) (some tag))
  else if u.state.draining && !m.isReturn then s.updLink n (LinkUnit.push (.final (.refused tag .departing)))
  else if !s.inRange line then
    (if m.isReturn then s.takeCause n (protocolFault .request m.code (some line) (some tag))
    else s.updLink n (LinkUnit.push (.final (.refused tag .address))))
  else
    match m.routed with
    | none => s
    | some x => s.updLink n fun u => (u.setTag tag true).route (sliceOf line) x

/-- Steps 2 to 8 of R137, after the data check. -/
def State.testMessage (n : Agent) (m : ReqMsg) (s : State) : State :=
  let u := s.links[n]
  match m with
  | .hello _ => s.takeCause n (protocolFault .request m.code none none)
  | .malformed x => s.takeCause n (formFault x)
  | _ =>
    if !u.cls.allows m then s.takeCause n (protocolFault .request m.code m.line m.tag)
    else
      match m, m.tag, m.line with
      | .depart, _, _ => if u.state = .online then s.updLink n LinkUnit.startDrain else s.updLink n LinkUnit.discard
      | .flushDone, _, _ => s.updLink n fun u => { u with flushDones := u.flushDones + 1 }
      | _, some tag, some line => s.routeTagged n m tag line
      | _, _, _ => s

/-- A message taken in ONLINE or DRAINING: a tag place is reserved for a tagged message (R136), the data check is made
first, and then the other tests (R137). -/
def State.takeInSession (n : Agent) (m : ReqMsg) (s : State) : State :=
  let s := if m.tag.isSome then s.updLink n (fun u => { u with reservations := u.reservations + 1 }) else s
  match m.checked, m.tag with
  | some false, some tag =>
    s.dataCheckFailed n ⟨.dataCheck, some (.request, m.code), m.line, some tag⟩ (LinkUnit.push (.final (.dataRetry tag)))
  | some true, _ => (s.dataCheckPassed n).testMessage n m
  | _, _ => s.testMessage n m

/-- A message taken in OFFLINE: a Hello opens a session or is discarded; with a Hello held a tagged message is answered
Refused(NOT_ONLINE); everything else is discarded and counted (R133, R134, R142, R210). -/
def State.takeOffline (n : Agent) (m : ReqMsg) (s : State) : State :=
  let u := s.links[n]
  match m with
  | .hello h =>
    if u.heldHello.isSome || u.helloAnswered then s.updLink n LinkUnit.discard else s.openSession n h
  | _ =>
    match u.heldHello, m.tag with
    | some _, some tag =>
      s.updLink n fun u => ({ u with reservations := u.reservations + 1 }).push (.final (.refused tag .notOnline))
    | _, _ => s.updLink n LinkUnit.discard

/-- The link unit takes a message from the request channel (R130): by link state, R133 to R138, R142, R210. -/
def State.takeMessage (n : Agent) (m : ReqMsg) (s : State) : State :=
  if s.links[n].state.session then s.takeInSession n m
  else if s.links[n].state = .offline then s.takeOffline n m
  else s.updLink n LinkUnit.discard

/-- A message event of the request channel. An arriving message is taken if none waits before it and it can be taken,
and otherwise waits at the link (R136). A waiting message is taken from the head of the channel if it is of the command's
kind and can be taken; otherwise there is no such event (log 1, log 10). -/
def State.requestChannelEvent (n : Agent) (src : Take ReqMsg) (isKind : ReqMsg → Bool) (s : State) : State :=
  let u := s.links[n]
  match src with
  | .arriving m =>
    if u.requestChannel = [] && u.canTake m then s.takeMessage n m
    else s.updLink n fun u => { u with requestChannel := u.requestChannel ++ [m] }
  | .waiting =>
    match u.requestChannel with
    | [] => s
    | m :: rest =>
      if isKind m && u.canTake m then (s.updLink n fun u => { u with requestChannel := rest }).takeMessage n m else s

/-! ## Messages of the reply channel (R143) -/

/-- A message of the reply channel in a state without a session is discarded and counted; in ONLINE and DRAINING `f`
takes it (R142, R143). -/
def State.replyChannelEvent (n : Agent) (f : State → State) (s : State) : State :=
  if s.links[n].state.session then f s else s.updLink n LinkUnit.discard

/-- A reply or GrantAck is forwarded to the slice of its handle (R131, R143). -/
def LinkUnit.forward (h : Handle) (m : SliceMsg) (u : LinkUnit) : LinkUnit := u.route (handleSlice h) m

/-! ## What a link unit takes from the slices and the quiesce controller -/

/-- The message at the front of the path from slice `sid` to LUn (R131). -/
def State.frontToLink (s : State) (sid : SliceId) (n : Agent) : Option LinkMsg := (s.slices[sid].toLink[n]).head?

/-- That message leaves the path. -/
def State.popToLink (sid : SliceId) (n : Agent) (s : State) : State :=
  s.updSlice sid fun x => { x with toLink := x.toLink.set n (x.toLink[n]).tail }

/-- The tag of a response. -/
def Response.tag : Response → Tag
  | .grantShared t _ _ | .grantOwned t _ _ | .grantPromote t _ | .snapshotData t _ | .writeDone t | .returnDone t
  | .retry t _ | .refused t _ | .dataRetry t => t

/-- The handle of a grant (R141). -/
def Response.grantHandle : Response → Option Handle
  | .grantShared _ h _ | .grantOwned _ h _ | .grantPromote _ h => some h
  | _ => none

/-- A Retry of any cause (R140). -/
def Response.isRetry : Response → Bool
  | .retry _ _ => true
  | _ => false

/-- A Retry response taken from a slice is counted, of whatever cause and in whatever link state (R42, R153). -/
def LinkUnit.countRetry (r : Response) (u : LinkUnit) : LinkUnit :=
  if r.isRetry then { u with retries := satInc u.retries } else u

/-- The link unit takes a final response from a slice in ONLINE or DRAINING: it goes into its tag place, the tag becomes
FREE, a Retry is counted, a grant's handle joins the confirm set, and the drain's conditions are tested (R140, R141,
R149, R150). -/
def LinkUnit.takeResponse (r : Response) (u : LinkUnit) : LinkUnit :=
  let u := ((u.push (.final r)).setTag r.tag false).countRetry r
  let u := match r.grantHandle with
    | some h => { u with confirm := if h ∈ u.confirm then u.confirm else u.confirm ++ [h] }
    | none => u
  u.settleDrain.farewell

end Sys2Proof.Machine
end

