-- ==== Sys2Proof/Machine/LinkEvents.lean ====
section
/-!
DEFINITION. Meanings of the link unit's other events: link-down, deliveries to the agent, and what it takes from the
slices, the quiesce controller and the memory channel (R132, R134, R140, R146, R147, R150, R152, R155, R188).
-/

namespace Sys2Proof.Machine

/-! ## Towards the agent -/

/-- A link-control message of the response queue: Welcome, HelloRefused, Farewell or FlushRequest (R146). -/
def Outbound.isControl : Outbound → Bool
  | .control _ => true
  | .final _ | .replyRetry _ => false

/-- Link-down in OFFLINE: the held Hello is dropped, and the link-control messages still queued are discarded (R132). -/
def LinkUnit.dropSession (u : LinkUnit) : LinkUnit :=
  { u with heldHello := none, responses := u.responses.filter fun m => !m.isControl }

/-- LINK_DOWN: a fence with cause LINK_LOST in ONLINE and DRAINING, ignored and not counted in FENCED (R132, R158). -/
def execLinkDown (n : Agent) (s : State) : Host.Outcome State Fault Refusal :=
  whileReleased s fun s =>
    match s.links[n].state with
    | .online | .drainingSettling | .drainingSweeping => s.takeCause n ⟨.linkLost, none, none, none⟩
    | .offline => s.updLink n LinkUnit.dropSession
    | .fencedSweeping | .fencedSwept => s

/-- The oldest message of the response channel leaves for the agent; a final response releases its tag place (R136,
R146). A grant is sent only in ONLINE and DRAINING; one that is at the front in OFFLINE stays there, with what is behind it
(R146, log 30). -/
def LinkUnit.depart (u : LinkUnit) : LinkUnit :=
  match u.responses with
  | [] => u
  | .final r :: ms =>
    if r.grantHandle.isSome && !u.state.session then u else { u with responses := ms, reservations := u.reservations - 1 }
  | .control _ :: ms => { u with responses := ms }
  | .replyRetry _ :: ms => { u with responses := ms }

/-- RESPONSE_DEPARTS (R136, R146). -/
def execResponseDeparts (n : Agent) (s : State) : Host.Outcome State Fault Refusal :=
  whileReleased s fun s => s.updLink n LinkUnit.depart

/-- PROBE_DELIVERED: the oldest queued probe is delivered while the link is ONLINE or DRAINING, and stays queued otherwise
(R70, R147, log 32). -/
def execProbeDelivered (n : Agent) (s : State) : Host.Outcome State Fault Refusal :=
  whileReleased s fun s => s.updLink n fun u => if u.state.session then { u with probes := u.probes.tail } else u

/-! ## From the slices -/

/-- A message of the kind at the front of the path from slice `sid` to LUn is taken by `f`; without one there is no such
event (R131, log 1). -/
def State.takeFromSlice (n : Agent) (sid : SliceId) (f : LinkMsg → Option (State → State)) (s : State) : State :=
  match (s.frontToLink sid n).bind f with
  | some g => g (s.popToLink sid n)
  | none => s

/-- FINAL_RESPONSE_TAKEN: taken in ONLINE and DRAINING, discarded in FENCED and OFFLINE (R140, R141, R146). A Retry is
counted in either case (R42, R153). -/
def execFinalResponseTaken (n : Agent) (sid : SliceId) (s : State) : Host.Outcome State Fault Refusal :=
  whileReleased s <| State.takeFromSlice n sid fun m => match m with
    | .response r => some fun s =>
      s.updLink n fun u => if u.state.session then u.takeResponse r else u.countRetry r
    | _ => none

/-- PROBE_TAKEN: queued in ONLINE and DRAINING, discarded in FENCED and OFFLINE (R147). The queue takes every probe, also a further one
where 128 are queued, which R70 and R147 say cannot come about and an agent that answers probes before they are delivered can bring about
(DESIGN CHOICE, log 35). -/
def execProbeTaken (n : Agent) (sid : SliceId) (s : State) : Host.Outcome State Fault Refusal :=
  whileReleased s <| State.takeFromSlice n sid fun m => match m with
    | .probe p => some fun s =>
      s.updLink n fun u => if u.state.session then { u with probes := u.probes ++ [p] } else u
    | _ => none

/-- TIMEOUT_REPORT: the cause carries the record's request line (R41, R155). -/
def execTimeoutReport (n : Agent) (sid : SliceId) (s : State) : Host.Outcome State Fault Refusal :=
  whileReleased s <| State.takeFromSlice n sid fun m => match m with
    | .timeout line => some (State.takeCause n ⟨.timeout, none, some line, none⟩)
    | _ => none

/-- FAULT_REPORT: the cause carries the message's kind and channel, the line, and for a return the tag (R155). -/
def execFaultReport (n : Agent) (sid : SliceId) (s : State) : Host.Outcome State Fault Refusal :=
  whileReleased s <| State.takeFromSlice n sid fun m => match m with
    | .fault c code line tag => some (State.takeCause n (protocolFault c code line tag))
    | _ => none

/-- DRAIN_COMPLETION_REPORT: in DRAINING(SWEEPING) the slice joins the set of slices reported and the conditions of
Farewell are tested; otherwise it is ignored (R150, R151). -/
def execDrainCompletionReport (n : Agent) (sid : SliceId) (s : State) : Host.Outcome State Fault Refusal :=
  whileReleased s <| State.takeFromSlice n sid fun m => match m with
    | .drainDone => some fun s => s.updLink n fun u =>
      if u.state = .drainingSweeping then
        LinkUnit.farewell { u with slicesReported := SliceSet.insert u.slicesReported sid }
      else u
    | _ => none

/-- A fence completion report in FENCED(SWEEPING): the fourth makes the link FENCED(SWEPT) (R152). -/
def LinkUnit.fenceReported (sid : SliceId) (u : LinkUnit) : LinkUnit :=
  if u.state = .fencedSweeping then
    let reported := SliceSet.insert u.slicesReported sid
    if reported = SliceSet.all then LinkUnit.enter .fencedSwept { u with slicesReported := reported }
    else { u with slicesReported := reported }
  else u

/-- FENCE_COMPLETION_REPORT (R152, R167). -/
def execFenceCompletionReport (n : Agent) (sid : SliceId) (s : State) : Host.Outcome State Fault Refusal :=
  whileReleased s <| State.takeFromSlice n sid fun m => match m with
    | .fenceDone => some fun s => s.updLink n (LinkUnit.fenceReported sid)
    | _ => none

/-! ## From the quiesce controller and the memory channel -/

/-- A message of the kind from the quiesce controller is taken by `f`; without one there is no such event (log 1,
log 19). -/
def State.takeFromController (n : Agent) (m : ControllerMsg) (f : State → State) (s : State) : State :=
  match takeFirst (fun x => x = m) s.links[n].fromController with
  | some (_, ms) => f (s.updLink n fun u => { u with fromController := ms })
  | none => s

/-- A FlushRequest is queued in ONLINE and DRAINING, merged with one still queued, and discarded otherwise (R146). -/
def LinkUnit.queueFlush (u : LinkUnit) : LinkUnit :=
  if u.state.session && !(u.responses.contains (.control .flushRequest)) then u.push (.control .flushRequest) else u

/-- FLUSH_REQUEST (R146, R187). -/
def execFlushRequest (n : Agent) (s : State) : Host.Outcome State Fault Refusal :=
  whileReleased s <| State.takeFromController n .flushRequest fun s => s.updLink n LinkUnit.queueFlush

/-- FLUSH_TIMEOUT_REPORT (R155, R189). -/
def execFlushTimeoutReport (n : Agent) (s : State) : Host.Outcome State Fault Refusal :=
  whileReleased s <| State.takeFromController n .flushTimeout (State.takeCause n ⟨.flushTimeout, none, none, none⟩)

/-- DISCARD_NOTICE: counted whatever the link state (R153, R188). -/
def execDiscardNotice (n : Agent) (s : State) : Host.Outcome State Fault Refusal :=
  whileReleased s <| State.takeFromController n .discard fun s => s.updLink n LinkUnit.discard

/-- The report of the clear's completion at a link unit: a held Hello is answered, agent enable being tested again, and is
cleared (R134). -/
def State.answerHeldHello (n : Agent) (s : State) : State :=
  match s.links[n].heldHello with
  | none => s
  | some c =>
    if s.enabled n then s.welcome n c
    else s.updLink n fun u => ({ u with heldHello := none }).push (.control .helloRefusedDisabled)

/-- MEMORY_CLEAR_REPORT (R134, R183). -/
def execMemoryClearReport (n : Agent) (s : State) : Host.Outcome State Fault Refusal :=
  whileReleased s fun s =>
    if s.links[n].clearReport then (s.updLink n fun u => { u with clearReport := false }).answerHeldHello n else s

end Sys2Proof.Machine
end

