-- ==== Sys2Proof/Machine/Quiesce.lean ====
section
/-!
DEFINITION. The quiesce controller and the management unit's copy of the link states: meanings of the events it takes from
link units, slices and its flush timer (R186 to R192, R200).
-/

namespace Sys2Proof.Machine

/-- A message to each slice on its command path (R190, R194). -/
def Mgmt.commandAll (x : CommandMsg) (m : Mgmt) : Mgmt := { m with cmdPath := m.cmdPath.map (· ++ [x]) }

/-- The controller enters SWEEPING: the flush is over, slices reported is empty, and each slice is sent a sweep start notice
with the current quiesce number (R190). -/
def Mgmt.enterSweeping (m : Mgmt) : Mgmt :=
  Mgmt.commandAll (.sweepStart m.quiesce.number)
    { m with quiesce := { m.quiesce with state := .sweeping, flushPending := 0#8, timer := none, reported := 0#4 } }

/-- An agent in FLUSHING leaves the flush-pending set; where the set becomes empty the controller enters SWEEPING in the
same event (R188, R189). -/
def Mgmt.leaveFlush (n : Agent) (m : Mgmt) : Mgmt :=
  let left := AgentSet.erase m.quiesce.flushPending n
  if left = 0#8 then m.enterSweeping else { m with quiesce := { m.quiesce with flushPending := left } }

/-- The agent is awaited by a flush: FLUSHING, and in the flush-pending set. -/
def Mgmt.flushAwaits (m : Mgmt) (n : Agent) : Bool :=
  m.quiesce.state = .flushing && AgentSet.mem m.quiesce.flushPending n

/-- A message from the quiesce controller on its way to LUn. -/
def LinkUnit.fromQuiesce (x : ControllerMsg) (u : LinkUnit) : LinkUnit :=
  { u with fromController := u.fromController ++ [x] }

/-- A message from the quiesce controller to every link unit of a set. -/
def State.tellAgents (x : ControllerMsg) (a : AgentSet) (s : State) : State :=
  (AgentSet.toList a).foldl (fun s n => s.updLink n (LinkUnit.fromQuiesce x)) s

/-- QUIESCE_FLUSH_DONE: a FlushDone of an awaited agent takes it out of the flush-pending set; any other is discarded, with a
discard notice to its link unit (R188). -/
def execQuiesceFlushDone (n : Agent) (s : State) : Host.Outcome State Fault Refusal :=
  whileReleased s fun s =>
    match s.links[n].flushDones with
    | 0 => s
    | k + 1 =>
      let s := s.updLink n fun u => { u with flushDones := k }
      if s.mgmt.flushAwaits n then s.updMgmt (Mgmt.leaveFlush n) else s.updLink n (LinkUnit.fromQuiesce .discard)

/-- The controller's part in a link-state report: an awaited agent whose link has entered FENCED(SWEEPING) or OFFLINE leaves
the flush-pending set (R189). -/
def Mgmt.flushReport (n : Agent) (st : LinkState) (m : Mgmt) : Mgmt :=
  if (st = .fencedSweeping || st = .offline) && m.flushAwaits n then m.leaveFlush n else m

/-- LINK_STATE_REPORT: the copy takes the state and class, the agent's link-state change item is set, and the controller
takes the same report (R189, R200, R207). -/
def execLinkStateReport (n : Agent) (s : State) : Host.Outcome State Fault Refusal :=
  whileReleased s fun s =>
    match s.links[n].reports with
    | [] => s
    | r :: rs =>
      let s := s.updLink n fun u => { u with reports := rs }
      let s := s.updMgmt fun m => { m with linkCopy := m.linkCopy.set n r }
      (s.raiseAlert (alertLinkState n)).updMgmt (Mgmt.flushReport n r.state)

/-- The flush timer has come to its time in FLUSHING (R189). -/
def State.flushExpired (s : State) : Bool :=
  s.mgmt.quiesce.state = .flushing && (match s.mgmt.quiesce.timer with
    | some e => e ≤ s.now
    | none => false)

/-- FLUSH_TIMER_EXPIRY: a FLUSH_TIMEOUT report to each pending agent's link unit, and SWEEPING (R189). Before its time there is
no such event (log 2). -/
def execFlushTimerExpiry (s : State) : Host.Outcome State Fault Refusal :=
  whileReleased s fun s =>
    if s.flushExpired then (s.tellAgents .flushTimeout s.mgmt.quiesce.flushPending).updMgmt Mgmt.enterSweeping else s

/-- A QUIESCE job completion with quiesce number k from slice `sid`: in SWEEPING, under the current number, it is counted, and
the fourth enters QUIESCED with outcome COMPLETED and the quiesce alert; any other is ignored (R192). -/
def State.quiesceReported (sid : SliceId) (k : BitVec 8) (s : State) : State :=
  let q := s.mgmt.quiesce
  if q.state = .sweeping && k = q.number then
    let reported := SliceSet.insert q.reported sid
    if reported = SliceSet.all then
      (s.updMgmt fun m => { m with quiesce :=
        { m.quiesce with reported := reported, state := .quiesced, outcome := .completed } }).raiseAlert alertQuiesce
    else s.updMgmt fun m => { m with quiesce := { m.quiesce with reported := reported } }
  else s

/-- QUIESCE_COMPLETION_REPORT (R192). -/
def execQuiesceCompletionReport (sid : SliceId) (s : State) : Host.Outcome State Fault Refusal :=
  whileReleased s fun s =>
    match s.slices[sid].toController with
    | [] => s
    | k :: ks => (s.updSlice sid fun x => { x with toController := ks }).quiesceReported sid k

end Sys2Proof.Machine
end

