-- ==== Sys2Proof/Machine/Management.lean ====
section
/-!
DEFINITION. Meanings of the management port's writes: the command engine and its eight commands, configuration, alert status
and the other transfers (Chapter 11; R187, R193, R194, R212).
-/

namespace Sys2Proof.Machine

/-! ## The command engine (R201) -/

/-- The I2C offset pointer takes the offset of a transfer (R197). -/
def State.setOffset (off : BitVec 8) (s : State) : State := s.updMgmt fun m => { m with offset := off }

/-- A command write: in RUNNING it is refused with BUSY; in IDLE it is taken, the status becomes RUNNING, the result is emptied,
and `f` is what its block does (R201, R212). -/
def State.commandWrite (code : BitVec 4) (arg : BitVec 28) (f : State → State) (s : State) : State :=
  let s := s.setOffset offCommand
  if s.mgmt.running then s.updMgmt fun m => { m with status := .busy }
  else f (s.updMgmt fun m => { m with running := true, command := arg ++ code, status := .running, result := none })

/-- The engine takes a command's outcome: the status becomes the outcome, the result is stored where there is one, the engine
is IDLE, and the command completion item is set (R201). -/
def State.completeCommand (st : CommandStatus) (res : Option InspectResult) (s : State) : State :=
  (s.updMgmt fun m => { m with running := false, status := st, result := res <|> m.result }).raiseAlert alertCommand

/-- The agent number of an agent command: bits 6:4 of the written value, so the low three bits of `arg` (R212, 12.4). -/
def commandAgent (arg : BitVec 28) : Agent := (arg.extractLsb' 0 3).toFin

/-- LUn returns an outcome to the command engine (R202). -/
def State.linkOutcome (n : Agent) (st : CommandStatus) (s : State) : State :=
  s.updLink n fun u => { u with outcome := some st }

/-! ## Commands taken at a link unit (R202) -/

/-- Detach at LUn: in ONLINE the drain starts (R148). -/
def State.detachAt (n : Agent) (s : State) : State :=
  if s.links[n].state = .online then (s.updLink n LinkUnit.startDrain).linkOutcome n .accepted
  else s.linkOutcome n .notApplicable

/-- DETACH (R202). -/
def execDetach (arg : BitVec 28) (s : State) : Host.Outcome State Fault Refusal :=
  whileReleased s <| State.commandWrite 1 arg (State.detachAt (commandAgent arg))

/-- Fence at LUn: in ONLINE and DRAINING a fence event with cause MANUAL (R157); otherwise nothing is counted (R158). -/
def State.fenceAt (n : Agent) (s : State) : State :=
  if s.links[n].state.session then (s.takeCause n ⟨.manual, none, none, none⟩).linkOutcome n .done
  else s.linkOutcome n .notApplicable

/-- FENCE (R202). -/
def execFence (arg : BitVec 28) (s : State) : Host.Outcome State Fault Refusal :=
  whileReleased s <| State.commandWrite 2 arg (State.fenceAt (commandAgent arg))

/-- The link is released from FENCED(SWEPT): OFFLINE, class none, and a release notice to each slice on the message path
(R152, R159, R168). The fault record, the fault count and the counters stay as they were (R168). -/
def LinkUnit.releaseFence (u : LinkUnit) : LinkUnit :=
  LinkUnit.enter .offline { u with cls := .unset, toSlice := u.toSlice.map (· ++ [.release]) }

/-- ReleaseFence at LUn (R168, R202). -/
def State.releaseAt (n : Agent) (s : State) : State :=
  if s.links[n].state = .fencedSwept then (s.updLink n LinkUnit.releaseFence).linkOutcome n .done
  else s.linkOutcome n .notApplicable

/-- RELEASE_FENCE (R168). -/
def execReleaseFence (arg : BitVec 28) (s : State) : Host.Outcome State Fault Refusal :=
  whileReleased s <| State.commandWrite 3 arg (State.releaseAt (commandAgent arg))

/-- The fault record is emptied, and the fault count and the three counters become 0 (R156, R202). -/
def LinkUnit.clearFault (u : LinkUnit) : LinkUnit :=
  { u with faultRecord := none, faultCount := 0, dataCheckFailures := 0, discarded := 0, retries := 0 }

/-- ClearFault at LUn (R202). -/
def State.clearFaultAt (n : Agent) (s : State) : State := (s.updLink n LinkUnit.clearFault).linkOutcome n .done

/-- CLEAR_FAULT (R202). -/
def execClearFault (arg : BitVec 28) (s : State) : Host.Outcome State Fault Refusal :=
  whileReleased s <| State.commandWrite 4 arg (State.clearFaultAt (commandAgent arg))

/-! ## Quiesce and Resume (R187, R193, R194, R203) -/

/-- The agents that a flush asks: link ONLINE or DRAINING and class CACHING, by the management unit's copy (R187 step 3). -/
def Mgmt.flushSet (m : Mgmt) : AgentSet :=
  (List.finRange 8).foldl (fun a n =>
    if m.linkCopy[n].state.session && m.linkCopy[n].cls = .caching then AgentSet.insert a n else a) 0#8

/-- A quiesce starts in NORMAL (R187). -/
def State.startQuiesce (s : State) : State :=
  let asked := s.mgmt.flushSet
  let s := s.updMgmt fun m => { m with quiesce :=
    { state := .flushing
      flushPending := asked
      timer := some (s.now + 100 * m.flushTimeout.toNat)
      number := m.quiesce.number + 1#8
      reported := 0#4
      outcome := .none } }
  if asked = 0#8 then s.updMgmt Mgmt.enterSweeping else s.tellAgents .flushRequest asked

/-- Quiesce at the quiesce controller, completing in the same event (R187, R203). -/
def State.quiesceCommand (s : State) : State :=
  if s.mgmt.quiesce.state = .normal then s.startQuiesce.completeCommand .accepted none
  else s.completeCommand .notApplicable none

/-- QUIESCE (R187). -/
def execQuiesce (arg : BitVec 28) (s : State) : Host.Outcome State Fault Refusal :=
  whileReleased s <| State.commandWrite 5 arg State.quiesceCommand

/-- The quiesce is aborted from FLUSHING or SWEEPING (R194). -/
def State.abortQuiesce (s : State) : State :=
  let s := if s.mgmt.quiesce.state = .sweeping then s.updMgmt (Mgmt.commandAll .withdrawal) else s
  (s.updMgmt fun m => { m with quiesce :=
    { m.quiesce with state := .normal, flushPending := 0#8, timer := none, reported := 0#4, outcome := .aborted } }).raiseAlert
    alertQuiesce

/-- Resume at the quiesce controller, completing in the same event (R193, R194, R203). -/
def State.resumeCommand (s : State) : State :=
  match s.mgmt.quiesce.state with
  | .normal => s.completeCommand .notApplicable none
  | .quiesced =>
    (s.updMgmt fun m => { m with quiesce := { m.quiesce with state := .normal } }).completeCommand .done none
  | .flushing | .sweeping => s.abortQuiesce.completeCommand .done none

/-- RESUME (R194). -/
def execResume (arg : BitVec 28) (s : State) : Host.Outcome State Fault Refusal :=
  whileReleased s <| State.commandWrite 6 arg State.resumeCommand

/-! ## Inspect and Scrub (R204, R205) -/

/-- A command for a line: out of range it completes ADDRESS; otherwise it goes on the command path to the line's slice
(R204, R205). -/
def State.lineCommand (x : CommandMsg) (line : LineAddr) (s : State) : State :=
  if s.inRange line then
    s.updMgmt fun m => { m with cmdPath := m.cmdPath.set (sliceOf line) (m.cmdPath[sliceOf line] ++ [x]) }
  else s.completeCommand .address none

/-- INSPECT (R204). -/
def execInspect (arg : BitVec 28) (s : State) : Host.Outcome State Fault Refusal :=
  whileReleased s <| State.commandWrite 7 arg (State.lineCommand (.inspect arg) arg)

/-- SCRUB (R205). -/
def execScrub (arg : BitVec 28) (s : State) : Host.Outcome State Fault Refusal :=
  whileReleased s <| State.commandWrite 8 arg (State.lineCommand (.scrub arg) arg)

/-- UNDEFINED_COMMAND_CODE: BUSY in RUNNING; in IDLE taken, completing NOT_APPLICABLE in the same event (R212). -/
def execUndefinedCommandCode (code : BitVec 4) (arg : BitVec 28) (s : State) : Host.Outcome State Fault Refusal :=
  if commandDefined code then .refused .illFormed
  else whileReleased s <| State.commandWrite code arg (State.completeCommand .notApplicable none)

/-! ## Outcomes -/

/-- The link unit whose outcome is on its way (R202). -/
def State.linkWithOutcome (s : State) : Option (Agent × CommandStatus) :=
  (List.finRange 8).findSome? fun n => s.links[n].outcome.map fun st => (n, st)

/-- The slice whose outcome is on its way, its outcome, and what stands behind it (R204, R206). -/
def State.sliceWithOutcome (s : State) : Option (SliceId × CommandOutcome × List CommandOutcome) :=
  (List.finRange 4).findSome? fun sid => match s.slices[sid].toEngine with
    | [] => none
    | o :: os => some (sid, o, os)

/-- COMMAND_OUTCOME: the engine takes the outcome of the command in progress (R201). -/
def execCommandOutcome (s : State) : Host.Outcome State Fault Refusal :=
  whileReleased s fun s =>
    match s.linkWithOutcome with
    | some (n, st) => (s.updLink n fun u => { u with outcome := none }).completeCommand st none
    | none =>
      match s.sliceWithOutcome with
      | some (sid, o, os) => (s.updSlice sid fun x => { x with toEngine := os }).completeCommand o.status o.result
      | none => s

/-! ## Configuration, alert status and the other transfers (R197 to R199, R207, R212) -/

/-- A write to offset 0x04: agent enable, exclusive-on-sole-reader, response timeout, flush timeout; a timeout of 0 leaves the
item as it was (R199, R212, 12.4). -/
def Mgmt.writeConfig (v : BitVec 32) (m : Mgmt) : Mgmt :=
  let response := v.extractLsb' 16 8
  let flush := v.extractLsb' 24 8
  { m with
    agentEnable := v.extractLsb' 0 8
    exclusive := v.getLsbD 8
    responseTimeout := if response = 0#8 then m.responseTimeout else response
    flushTimeout := if flush = 0#8 then m.flushTimeout else flush }

/-- A write to offset 0x08: the alert mask (R199, 12.4). -/
def Mgmt.writeAlertMask (v : BitVec 32) (m : Mgmt) : Mgmt := { m with alertMask := v.extractLsb' 0 19 }

/-- CONFIGURATION_WRITE (R199). -/
def execConfigurationWrite (off : BitVec 8) (value : BitVec 32) (s : State) : Host.Outcome State Fault Refusal :=
  if off = offConfig then whileReleased s fun s => (s.setOffset off).updMgmt (Mgmt.writeConfig value)
  else if off = offAlertMask then whileReleased s fun s => (s.setOffset off).updMgmt (Mgmt.writeAlertMask value)
  else .refused .illFormed

/-- ALERT_STATUS_WRITE: the items whose bits are written as one are cleared (R198, R207, R212). -/
def execAlertStatusWrite (value : BitVec 32) (s : State) : Host.Outcome State Fault Refusal :=
  whileReleased s fun s =>
    (s.setOffset offAlertStatus).updMgmt fun m => { m with alerts := m.alerts &&& ~~~(value.extractLsb' 0 19) }

/-- OFFSET_WRITE (R197). -/
def execOffsetWrite (off : BitVec 8) (s : State) : Host.Outcome State Fault Refusal :=
  whileReleased s (State.setOffset off)

/-- SHORT_WRITE: the offset pointer takes the offset; the one to three data bytes are discarded (R197). -/
def execShortWrite (off : BitVec 8) (data : List Byte) (s : State) : Host.Outcome State Fault Refusal :=
  if 1 ≤ data.length && data.length ≤ 3 then whileReleased s (State.setOffset off) else .refused .illFormed

/-- REGISTER_WRITE_NO_EFFECT: a register write to a status, fault record, counter or unimplemented offset moves the offset
pointer and has no other effect (R197, R198). -/
def execRegisterWriteNoEffect (off : BitVec 8) (value : BitVec 32) (s : State) : Host.Outcome State Fault Refusal :=
  if (Instr.registerWriteNoEffect off value).wf then whileReleased s (State.setOffset off) else .refused .illFormed

end Sys2Proof.Machine
end

