-- ==== Sys2Proof/Machine/SliceArrivals.lean ====
section
/-!
DEFINITION. Meanings of the events at a slice that a message of an agent, a deadline or a read's completion makes: requests
(R32), returns (R79 to R85), replies (R71 to R78), GrantAcks (R64, R65), deadline expiries (R41), read completions (R57).
-/

namespace Sys2Proof.Machine

/-! ## The message path from a link unit -/

/-- An event of slice `sid`: `f` acts, and the slice goes on within the event (log 17). -/
def State.sliceEvent (sid : SliceId) (wake : Bool) (f : Env → Slice → Slice) (s : State) : State :=
  let env := s.env sid
  s.updSlice sid fun x => (f env x).goOn env wake

/-- A message of the kind at the front of the message path from LUn to slice `sid` is taken by `f`; without one there is no
such event (R131, log 1). -/
def State.takeFromLink (sid : SliceId) (n : Agent) (f : SliceMsg → Option (Env → Slice → Slice)) (s : State) : State :=
  match s.links[n].toSlice[sid] with
  | [] => s
  | m :: ms =>
    match f m with
    | none => s
    | some g => (s.updLink n fun u => { u with toSlice := u.toSlice.set sid ms }).sliceEvent sid false g

/-! ## Requests -/

/-- A request starts in a FREE record, if its line is not held, no waiter names the line and a record is FREE; otherwise
it joins the wait queue, if a place is free (R32, R205). -/
def Slice.startOrQueue (env : Env) (w : Waiter) (s : Slice) : Option Slice :=
  let start := if s.held w.line || s.waitQueue.any (fun x => x.line = w.line) then none else s.takeFree env.sid
  match start with
  | some (i, s') => some (Slice.startRecord env i w s')
  | none =>
    if s.waitQueue.length < Config.waitQueuePlaces then some { s with waitQueue := s.waitQueue ++ [w] } else none

/-- The arrival decision for an agent's request: the first row whose condition holds (R32). -/
def Slice.requestArrives (env : Env) (n : Agent) (tag : Tag) (w : Waiter) (s : Slice) : Slice :=
  if AgentSet.mem s.fenced n then s
  else if AgentSet.mem s.draining n then s.send n (.response (.refused tag .departing))
  else if env.suspended then s.send n (.response (.retry tag .quiesced))
  else (s.startOrQueue env w).getD (s.send n (.response (.retry tag .busy)))

/-- REQUEST_ARRIVAL (R32). -/
def execRequestArrival (sid : SliceId) (n : Agent) (s : State) : Host.Outcome State Fault Refusal :=
  whileReleased s <| State.takeFromLink sid n fun m => match m with
    | .request k tag line w => some fun env => Slice.requestArrives env n tag ⟨.agent n tag, k, line, w⟩
    | _ => none

/-! ## Returns -/

/-- The record that holds the line, with whether it does so as its victim line (R29). -/
def Slice.holderOf (s : Slice) (l : LineAddr) : Option (RecIdx × Bool) :=
  (s.holder l).map fun i => (i, s.records[i].line != l)

/-- The wait of a record on agent n for one of its lines. -/
def Record.waitOf (r : Record) (victim : Bool) (n : Agent) : Option Wait :=
  (r.waitsOn victim).find? fun w => w.agent = n

/-- The record has settled a Clean or Dirty reply of the agent to a Revoke or Demote for that line (R80). -/
def Record.gaveUp (r : Record) (victim : Bool) (n : Agent) : Bool :=
  (r.waitsOn victim).any fun w =>
    w.agent = n && (w.state = .settled .clean || w.state = .settled .dirty) && (w.probe = .revoke || w.probe = .demote)

/-- The acceptance test of a return: the entry is OWNED by the sender, and no record that holds the line has settled its
Clean or Dirty reply to a Revoke or Demote (R80). -/
def Slice.acceptsReturn (s : Slice) (n : Agent) (l : LineAddr) : Bool :=
  match s.entryOf l with
  | some (_, .owned b) =>
    b = n && (match s.holderOf l with
      | some (i, v) => !(s.records[i].gaveUp v n)
      | none => true)
  | _ => false

/-- The kinds that put an owner's data into their data buffer (4.4). -/
def Kind.usesData : Kind → Bool
  | .fetchShared | .fetchOwned | .promote | .snapshot | .maskedWrite => true
  | .recall | .scrub => false

/-- The kinds that read memory where the owner's copy was clean (4.4; a MaskedWrite orders a merge write instead). -/
def Kind.readsMemory : Kind → Bool
  | .fetchShared | .fetchOwned | .promote | .snapshot => true
  | .maskedWrite | .recall | .scrub => false

/-- The data source of record i's request line where the owner's copy was clean: a read, unless the kind needs none or the
originator is fenced (R48, R53, R57, R62, R97, R108). -/
def Slice.cleanSource (env : Env) (i : RecIdx) (s : Slice) : Slice :=
  if s.records[i].kind.readsMemory && !s.records[i].originFenced then s.orderRead env i else s

/-- Record i takes the bytes of its request line into its data buffer, where its kind uses them (R58, 4.4). -/
def Slice.fillBuffer (env : Env) (i : RecIdx) (b : Buffer) (s : Slice) : Slice :=
  if s.records[i].kind.usesData then s.updRec env i fun r => { r with buffer := some b } else s

/-- The data source that an absorbed return sets for the request line; the plan of a FetchShared is made again (R50, R82,
R98, R105). -/
def Slice.returnSource (env : Env) (i : RecIdx) (dirty : Option Poisoned) (s : Slice) : Slice :=
  let s := match dirty with
    | some d => s.fillBuffer env i ⟨d, .returnDirty⟩
    | none => s.cleanSource env i
  s.updRec env i Record.replan

/-- An accepted return is absorbed into the record that holds its line and awaits the sender on it, in the owner role:
AWAITING REPLY becomes REPLY AFTER RETURN, AWAITING RETURN becomes SETTLED (R82). -/
def Slice.absorb (env : Env) (n : Agent) (l : LineAddr) (dirty : Option Poisoned) (s : Slice) : Slice :=
  match s.holderOf l with
  | none => s
  | some (i, v) =>
    let next : Option WaitState := match s.records[i].waitOf v n with
      | some ⟨_, .owner, _, .awaitingReply⟩ => some .replyAfterReturn
      | some ⟨_, .owner, _, .awaitingReturn⟩ => some (.settled .returned)
      | _ => none
    match next with
    | none => s
    | some st =>
      let s := s.moveWaitOf env i v n st
      if v then s else s.returnSource env i dirty

/-- The write of an accepted ReturnDirty (R81, step 1). -/
def Slice.orderReturn (l : LineAddr) (dirty : Option Poisoned) (s : Slice) : Slice :=
  match dirty with
  | some d => s.order (.fullWrite l d) .accepted
  | none => s

/-- The kind code of a return (12.2). -/
def returnCode (dirty : Option Poisoned) : BitVec 6 := if dirty.isSome then kindReturnDirty else kindReturnClean

/-- A return is decided at its arrival (R80): discarded, accepted (R81) and absorbed (R82), or refused as from a non-owner
(R84). -/
def Slice.returnArrives (env : Env) (n : Agent) (tag : Tag) (l : LineAddr) (dirty : Option Poisoned) (s : Slice) : Slice :=
  if AgentSet.mem s.fenced n then s
  else if s.acceptsReturn n l then
    (((s.orderReturn l dirty).freeEntry env.sid l).send n (.response (.returnDone tag))).absorb env n l dirty
  else s.send n (.fault .request (returnCode dirty) (some l) (some tag))

/-- The slice takes no ReturnDirty while 16 writes of accepted returns wait in its submission list (R173). -/
def Slice.holdsBackReturns (s : Slice) : Bool :=
  Config.returnWriteLimit ≤ (s.submission.filter fun o => o.owner = .accepted).length

/-- RETURN_ARRIVAL (R79, R80, R173). -/
def execReturnArrival (sid : SliceId) (n : Agent) (s : State) : Host.Outcome State Fault Refusal :=
  whileReleased s fun s => s.takeFromLink sid n fun m => match m with
    | .returned tag line dirty =>
      if dirty.isSome && s.slices[sid].holdsBackReturns then none
      else some fun env => Slice.returnArrives env n tag line dirty
    | _ => none

/-! ## Replies -/

/-- The record and line that a reply names, and the sender's wait on it: the record is in GATHER, the line is its request
line or its victim line, and the sender has a wait on that line (R71). -/
def Slice.replyWait (s : Slice) (n : Agent) (h : Handle) (l : LineAddr) : Option (RecIdx × Bool × Wait) :=
  let i := handleIdx h
  let r := s.records[i]
  if r.phase = .gather then
    (if r.line = l then (r.waitOf false n).map fun w => (i, false, w)
    else if r.victim = some l then (r.waitOf true n).map fun w => (i, true, w)
    else none)
  else none

/-- Gone on a wait that accepts it (R72 to R74, R77). -/
def Slice.takeGone (env : Env) (n : Agent) (l : LineAddr) (i : RecIdx) (v : Bool) (w : Wait) (s : Slice) : Option Slice :=
  match w.role, w.state with
  | .sharer, .awaitingReply => some ((s.moveWaitOf env i v n (.settled .gone)).removeAgent env.sid l n)
  | .owner, .replyAfterReturn => some (s.moveWaitOf env i v n (.settled .gone))
  | .owner, .awaitingReply => some (s.moveWaitOf env i v n .awaitingReturn)
  | _, _ => none

/-- Clean on a wait that accepts it (R75). -/
def Slice.takeClean (env : Env) (n : Agent) (i : RecIdx) (v : Bool) (w : Wait) (s : Slice) : Option Slice :=
  match w.role, w.state with
  | .sharer, .awaitingReply => some (s.moveWaitOf env i v n (.settled .clean))
  | .owner, .awaitingReply =>
    let s := s.moveWaitOf env i v n (.settled .clean)
    some (if v then s else s.cleanSource env i)
  | _, _ => none

/-- The use of a Dirty reply's data (R76, 4.4): a victim's and a recall's is written; a FetchShared's is written and kept; a
FetchOwned's, Promote's, Snapshot's and MaskedWrite's is kept; a Scrub's is not (R206). -/
def Slice.dirtySource (env : Env) (l : LineAddr) (d : Poisoned) (i : RecIdx) (v : Bool) (s : Slice) : Slice :=
  if v then s.order (.fullWrite l d) (.record i)
  else
    match s.records[i].kind with
    | .recall => s.order (.fullWrite l d) (.record i)
    | .fetchShared => (s.fillBuffer env i ⟨d, .dirtyReply⟩).order (.fullWrite l d) (.record i)
    | .fetchOwned | .promote | .snapshot | .maskedWrite => s.fillBuffer env i ⟨d, .dirtyReply⟩
    | .scrub => s

/-- Dirty on a wait that accepts it (R76). -/
def Slice.takeDirty (env : Env) (n : Agent) (l : LineAddr) (d : Poisoned) (i : RecIdx) (v : Bool) (w : Wait) (s : Slice) :
    Option Slice :=
  match w.role, w.state with
  | .owner, .awaitingReply => some ((s.moveWaitOf env i v n (.settled .dirty)).dirtySource env l d i v)
  | _, _ => none

/-- The kind code of a reply (12.2). -/
def Reply.code : Reply → BitVec 6
  | .gone => kindGone
  | .clean => kindClean
  | .dirty _ => kindDirty

/-- A wait of a record takes a reply, if its state accepts the reply's kind (R72, R73). -/
def Slice.takeReply (env : Env) (n : Agent) (l : LineAddr) (r : Reply) (i : RecIdx) (v : Bool) (w : Wait) (s : Slice) :
    Option Slice :=
  match r with
  | .gone => s.takeGone env n l i v w
  | .clean => s.takeClean env n i v w
  | .dirty d => s.takeDirty env n l d i v w

/-- A reply arrives: discarded from a fenced agent; matched and taken; or reported as a protocol fault (R71, R78). -/
def Slice.replyArrives (env : Env) (n : Agent) (h : Handle) (l : LineAddr) (r : Reply) (s : Slice) : Slice :=
  if AgentSet.mem s.fenced n then s
  else
    ((s.replyWait n h l).bind fun (i, v, w) => s.takeReply env n l r i v w).getD
      (s.send n (.fault .reply r.code (some l) none))

/-- REPLY_GONE (R74, R77). -/
def execReplyGone (sid : SliceId) (n : Agent) (s : State) : Host.Outcome State Fault Refusal :=
  whileReleased s <| State.takeFromLink sid n fun m => match m with
    | .reply h l .gone => some fun env => Slice.replyArrives env n h l .gone
    | _ => none

/-- REPLY_CLEAN (R75). -/
def execReplyClean (sid : SliceId) (n : Agent) (s : State) : Host.Outcome State Fault Refusal :=
  whileReleased s <| State.takeFromLink sid n fun m => match m with
    | .reply h l .clean => some fun env => Slice.replyArrives env n h l .clean
    | _ => none

/-- REPLY_DIRTY (R76). -/
def execReplyDirty (sid : SliceId) (n : Agent) (s : State) : Host.Outcome State Fault Refusal :=
  whileReleased s <| State.takeFromLink sid n fun m => match m with
    | .reply h l (.dirty d) => some fun env => Slice.replyArrives env n h l (.dirty d)
    | _ => none

/-! ## GrantAcks -/

/-- The record is in CONFIRM for a grant to agent n and still awaits its GrantAck (R63, R64, log 16). -/
def Record.confirmsFor (r : Record) (n : Agent) : Bool :=
  r.phase = .confirm && !r.finished && (match r.originator with
    | .agent a _ => a = n
    | .sweep => false
    | .management => false)

/-- A GrantAck arrives: discarded from a fenced agent; matched, it ends the record; otherwise reported as a protocol fault
with the record's request line if the record is in use (R64, R65). -/
def Slice.grantAckArrives (env : Env) (n : Agent) (h : Handle) (s : Slice) : Slice :=
  let i := handleIdx h
  let r := s.records[i]
  if AgentSet.mem s.fenced n then s
  else if r.confirmsFor n then s.finish env i
  else s.send n (.fault .reply kindGrantAck (if r.phase = .free then none else some r.line) none)

/-- GRANT_ACK_ARRIVAL (R64). -/
def execGrantAckArrival (sid : SliceId) (n : Agent) (s : State) : Host.Outcome State Fault Refusal :=
  whileReleased s <| State.takeFromLink sid n fun m => match m with
    | .grantAck h => some fun env => Slice.grantAckArrives env n h
    | _ => none

/-! ## Deadlines and read completions -/

/-- The record's deadline has come (R40). -/
def Record.expiresAt (now : Nat) (r : Record) : Bool :=
  match r.deadline with
  | .running e => e ≤ now
  | .stopped => false
  | .expired => false

/-- The response deadline of record i expires: it stops, and TIMEOUT, naming the request line, is reported to the link
unit of every agent the record awaits (R41). Before its time there is no such event (log 2). -/
def Slice.expire (env : Env) (i : RecIdx) (s : Slice) : Slice :=
  let r := s.records[i]
  if r.expiresAt env.now then
    (AgentSet.toList r.awaited).foldl (fun s n => s.send n (.timeout r.line))
      { s with records := s.records.set i { r with deadline := .expired } }
  else s

/-- RESPONSE_DEADLINE_EXPIRY (R41). -/
def execResponseDeadlineExpiry (h : Handle) (s : State) : Host.Outcome State Fault Refusal :=
  whileReleased s <| State.sliceEvent (handleSlice h) false fun env => Slice.expire env (handleIdx h)

/-- A read's completion at the record its handle names: the memory-read flag is cleared, and the data buffer takes the
bytes and the Poison indication with source memory, unless the originator is fenced (R28, R57, R175). -/
def Slice.readCompletes (env : Env) (c : Completion) (s : Slice) : Slice :=
  s.updRec env (handleIdx c.handle) fun r =>
    { r with memRead := false, buffer := if r.originFenced then r.buffer else some ⟨c.data, .memory⟩ }

/-- MEMORY_READ_COMPLETION: the oldest completion of a read of the line (R57, R175). -/
def execMemoryReadCompletion (line : LineAddr) (s : State) : Host.Outcome State Fault Refusal :=
  whileReleased s fun s =>
    match takeFirst (fun c => c.line = line) s.mem.completions with
    | none => s
    | some (c, cs) =>
      (s.updMem fun m => { m with completions := cs }).sliceEvent (handleSlice c.handle) false fun env =>
        Slice.readCompletes env c

end Sys2Proof.Machine
end

