-- ==== Sys2Proof/Machine/MemoryChannel.lean ====
section
/-!
DEFINITION. Meanings of the memory channel's events: submission, the four performances with the ECC check, and the start-up
clear (Chapter 9).
-/

namespace Sys2Proof.Machine

/-! ## Submission -/

/-- The arbiter's choice: the first slice after the last served, in the turn 0, 1, 2, 3, that has an operation waiting
(R174). -/
def State.nextToSubmit (s : State) : Option SliceId :=
  [s.mem.lastServed + 1, s.mem.lastServed + 2, s.mem.lastServed + 3, s.mem.lastServed].find? fun sid =>
    !(s.slices[sid].submission.isEmpty)

/-- The front operation of the slice's submission list moves into the memory request queue (R173, R174). -/
def State.submit (sid : SliceId) (s : State) : State :=
  match s.slices[sid].submission with
  | [] => s
  | o :: os =>
    ((s.updSlice sid fun x => { x with submission := os }).updMem fun m =>
      { m with queue := m.queue ++ [⟨o.op, sid⟩], lastServed := sid }).sliceEvent sid false fun _ x => x

/-- OPERATION_SUBMITTED: where the queue has a free place and an operation waits (R174). What waited for the submission goes
on in this event (R107, R173). -/
def execOperationSubmitted (s : State) : Host.Outcome State Fault Refusal :=
  whileReleased s fun s =>
    match s.nextToSubmit with
    | some sid => if s.mem.queue.length < Config.memoryQueuePlaces then s.submit sid else s
    | none => s

/-! ## Performing an operation -/

/-- The line an operation names (R172). -/
def MemOp.line : MemOp → LineAddr
  | .read l _ => l
  | .fullWrite l _ => l
  | .mergeWrite l _ _ => l
  | .poisonWrite l => l

/-- The channel performs the oldest queued operation for the line, if it is of the command's kind, as `f` gives; its place
is freed. While the clear runs it performs none (R175, R183); otherwise there is no such event (log 1). -/
def State.perform (line : LineAddr) (f : MemOp → Option (State → State)) (s : State) : State :=
  if s.mem.dram.clearRunning then s
  else
    match takeFirst (fun q => q.op.line = line) s.mem.queue with
    | none => s
    | some (q, qs) =>
      match f q.op with
      | none => s
      | some g => g (s.updMem fun m => { m with queue := qs })

/-- What the check of R176 gives for a stored line: the bytes, and whether the operation sees Poison. -/
def Dram.check (d : Dram) (l : LineAddr) : EccOutcome → Poisoned
  | .good => ⟨d.readLine l.toNat, d.marked l.toNat⟩
  | .corrected => ⟨d.readLine l.toNat, d.marked l.toNat⟩
  | .uncorrectable asRead => ⟨asRead, true⟩

/-- The repair and the reporting of R176 at the channel: a correction is counted (the corrected line is the stored value);
an uncorrectable line is rewritten as read, marked, counted and remembered (R182). -/
def MemChannel.repair (l : LineAddr) (m : MemChannel) : EccOutcome → MemChannel
  | .good => m
  | .corrected => { m with corrected := satInc m.corrected }
  | .uncorrectable asRead =>
    { m with
      dram := m.dram.writeLine l.toNat asRead true
      uncorrectable := satInc m.uncorrectable
      lastUncorrectable := some l }

/-- An uncorrectable error was found. -/
def eccUncorrectable : EccOutcome → Bool
  | .uncorrectable _ => true
  | .good => false
  | .corrected => false

/-- The check of a reading operation, in its event: the repair is made, and an uncorrectable error raises the memory
uncorrectable alert (R176, R182). -/
def State.checkLine (l : LineAddr) (e : EccOutcome) (s : State) : State :=
  let s := s.updMem fun m => m.repair l e
  if eccUncorrectable e then s.raiseAlert alertMemory else s

/-- The line is stored whole with fresh ECC, its mark set or cleared. -/
def State.storeLine (l : LineAddr) (d : Poisoned) (s : State) : State :=
  s.updMem fun m => { m with dram := m.dram.writeLine l.toNat d.bytes d.poison }

/-- A read is performed: its completion, with the bytes and the Poison indication of the check, goes to the slice (R175 to
R177). -/
def State.performRead (l : LineAddr) (h : Handle) (e : EccOutcome) (s : State) : State :=
  (s.checkLine l e).updMem fun m => { m with completions := m.completions ++ [⟨l, h, s.mem.dram.check l e⟩] }

/-- A merge write is performed: under a full mask it reads nothing and clears the mark; under a partial one the bytes are
merged over what the check gave, and the mark is set if the check saw Poison (R176, R179). -/
def State.performMerge (l : LineAddr) (bytes : LineData) (mask : ByteMask) (e : EccOutcome) (s : State) : State :=
  if mask = BitVec.allOnes 64 then s.storeLine l ⟨bytes, false⟩
  else
    let base := s.mem.dram.check l e
    (s.checkLine l e).storeLine l ⟨mergeBytes mask bytes base.bytes, base.poison⟩

/-- A poison write is performed: the bytes that the check gave, with the mark set (R180). -/
def State.performPoison (l : LineAddr) (e : EccOutcome) (s : State) : State :=
  let base := s.mem.dram.check l e
  (s.checkLine l e).storeLine l ⟨base.bytes, true⟩

/-- READ (R177). -/
def execRead (line : LineAddr) (ecc : EccOutcome) (s : State) : Host.Outcome State Fault Refusal :=
  whileReleased s <| State.perform line fun op => match op with
    | .read l h => some (State.performRead l h ecc)
    | _ => none

/-- FULL_WRITE (R178). -/
def execFullWrite (line : LineAddr) (s : State) : Host.Outcome State Fault Refusal :=
  whileReleased s <| State.perform line fun op => match op with
    | .fullWrite l d => some (State.storeLine l d)
    | _ => none

/-- MERGE_WRITE (R179). -/
def execMergeWrite (line : LineAddr) (ecc : EccOutcome) (s : State) : Host.Outcome State Fault Refusal :=
  whileReleased s <| State.perform line fun op => match op with
    | .mergeWrite l bytes mask => some (State.performMerge l bytes mask ecc)
    | _ => none

/-- POISON_WRITE (R180). -/
def execPoisonWrite (line : LineAddr) (ecc : EccOutcome) (s : State) : Host.Outcome State Fault Refusal :=
  whileReleased s <| State.perform line fun op => match op with
    | .poisonWrite l => some (State.performPoison l ecc)
    | _ => none

/-! ## The start-up memory clear -/

/-- The clear has reached the end of the pool: every line of it is clear (R183). -/
def Dram.clearAll (lines : Nat) (d : Dram) : Dram :=
  let e := d.clearTo lines
  { e with clearRunning := false }

/-- The report of the clear's completion is on its way to the link unit (R183). -/
def LinkUnit.reportClear (u : LinkUnit) : LinkUnit := { u with clearReport := true }

/-- The clear completes: every line of the pool is clear, and the completion is reported to each link unit and to the
management unit (R183). -/
def State.completeClear (s : State) : State :=
  let t := s.updMem fun m => { m with dram := m.dram.clearAll s.poolLines }
  { t with links := t.links.map LinkUnit.reportClear }.updMgmt fun m => { m with clearReport := true }

/-- MEMORY_CLEAR_COMPLETE: while the clear runs (R183, log 5). -/
def execMemoryClearComplete (s : State) : Host.Outcome State Fault Refusal :=
  whileReleased s fun s => if s.mem.dram.clearRunning then s.completeClear else s

/-- MEMORY_READY: the management unit takes the report of the clear's completion (R183, R200). -/
def execMemoryReady (s : State) : Host.Outcome State Fault Refusal :=
  whileReleased s fun s =>
    if s.mgmt.clearReport then s.updMgmt fun m => { m with clearReport := false, memoryReady := true } else s

end Sys2Proof.Machine
end

