-- ==== Sys2Proof/Machine/Notices.lean ====
section
/-!
DEFINITION. Meanings of the notices and commands that a slice takes, and of the sweep engine's arrival at a set (R34, R118,
R119, R123, R159 to R166, R190, R191, R194, R204, R205).
-/

namespace Sys2Proof.Machine

/-! ## Notices from a link unit -/

/-- A notice of the kind at the front of the notice path from LUn to slice `sid` is taken by `f`; without one there is no
such event (R131, log 1). -/
def State.takeNotice (sid : SliceId) (n : Agent) (x : Notice) (wake : Bool) (f : Env → Slice → Slice) (s : State) : State :=
  match s.links[n].notices[sid] with
  | [] => s
  | y :: ys =>
    if y = x then
      (s.updLink n fun u => { u with notices := u.notices.set sid ys }).sliceEvent sid wake f
    else s

/-- The waiter's originator is agent n. -/
def Waiter.isFrom (n : Agent) (w : Waiter) : Bool :=
  match w.originator with
  | .agent a _ => a = n
  | .sweep => false
  | .management => false

/-- The record's originator is agent n. -/
def Record.isFrom (n : Agent) (r : Record) : Bool :=
  match r.originator with
  | .agent a _ => a = n
  | .sweep => false
  | .management => false

/-- Step 3 of R160 at one record in use: the originator-fenced mark, the end of a CONFIRM whose grantee is n (R67), and the
settling of the waits on n, request line first (R161, R162). A read that the record has ordered and that is still in the submission
list stays there and is waited for: R62 and R108 have the record submit no read that it has not yet submitted, R173 calls an operation
submitted when it leaves the list, and R57 counts a read as outstanding from the decision to submit it (DESIGN CHOICE, log 33). -/
def Slice.fenceRecord (env : Env) (n : Agent) (s : Slice) (i : RecIdx) : Slice :=
  let r := s.records[i]
  if r.phase = .free then s
  else
    let s := if r.isFrom n then s.updRec env i fun r => { r with originFenced := true } else s
    let s := if r.isFrom n && r.phase = .confirm then s.finish env i else s
    (s.settleFenced env i false n).settleFenced env i true n

/-- A slice takes the fence notice for agent n: the six steps of R160 but for the last, which the event's course gives. The
records of step 3 are taken in the order of their numbers (log 17). A record that ends in step 4 and finds no waiter is offered to an
engine that is WAITING FOR RECORD only after step 5, where R37 gives it to the engine at the record's end and the rules do not say
whether the engine acts before or after the jobs change (DESIGN CHOICE, log 17). -/
def Slice.fenceNotice (env : Env) (n : Agent) (s : Slice) : Slice :=
  let s := { s with
    fenced := AgentSet.insert s.fenced n
    draining := AgentSet.erase s.draining n
    waitQueue := s.waitQueue.filter fun w => !(w.isFrom n) }
  let s := (List.finRange 32).foldl (Slice.fenceRecord env n) s
  let s := Slice.settle env false s.fuel false s
  (s.dropDrainJob n).joinJob (.fence n)

/-- FENCE_NOTICE (R160). -/
def execFenceNotice (sid : SliceId) (n : Agent) (s : State) : Host.Outcome State Fault Refusal :=
  whileReleased s <| State.takeNotice sid n .fence true fun env => Slice.fenceNotice env n

/-- The answer to a removed waiter: Refused(DEPARTING) with its tag (R34). -/
def Slice.refuseWaiter (n : Agent) (s : Slice) (w : Waiter) : Slice :=
  match w.originator with
  | .agent _ t => s.send n (.response (.refused t .departing))
  | .sweep => s
  | .management => s

/-- A slice takes the drain notice for agent n: the agent's waiters are removed, each answered Refused(DEPARTING) (R34, R148). The
rules say "for each" and give the answers no order; the oldest waiter's goes first on the path (DESIGN CHOICE, log 17). -/
def Slice.drainNotice (n : Agent) (s : Slice) : Slice :=
  let gone := s.waitQueue.filter (Waiter.isFrom n)
  gone.foldl (Slice.refuseWaiter n)
    { s with
      draining := AgentSet.insert s.draining n
      waitQueue := s.waitQueue.filter fun w => !(w.isFrom n) }

/-- DRAIN_NOTICE (R32, R34, R38, R148). -/
def execDrainNotice (sid : SliceId) (n : Agent) (s : State) : Host.Outcome State Fault Refusal :=
  whileReleased s <| State.takeNotice sid n .drain true fun _ => Slice.drainNotice n

/-- DRAIN_SWEEP_NOTICE: a DRAIN job for the agent joins (R118, R149). -/
def execDrainSweepNotice (sid : SliceId) (n : Agent) (s : State) : Host.Outcome State Fault Refusal :=
  whileReleased s <| State.takeNotice sid n .drainSweep false fun _ => Slice.joinJob (.drain n)

/-- RELEASE_NOTICE: on the message path; the agent leaves the fenced-agent set (R159, R168). -/
def execReleaseNotice (sid : SliceId) (n : Agent) (s : State) : Host.Outcome State Fault Refusal :=
  whileReleased s <| State.takeFromLink sid n fun m => match m with
    | .release => some fun _ x => { x with fenced := AgentSet.erase x.fenced n }
    | _ => none

/-! ## The command path -/

/-- A message at the front of the command path to slice `sid` is taken by `f`, if `f` takes its kind; otherwise there is no
such event (log 1, log 19). -/
def State.takeCommand (sid : SliceId) (f : CommandMsg → Option (Env → Slice → Slice)) (s : State) : State :=
  match s.mgmt.cmdPath[sid] with
  | [] => s
  | m :: ms =>
    match f m with
    | none => s
    | some g => (s.updMgmt fun x => { x with cmdPath := x.cmdPath.set sid ms }).sliceEvent sid false g

/-- SWEEP_START_NOTICE: the slice holds a pending quiesce sweep with the notice's number (R190, R191). -/
def execSweepStartNotice (sid : SliceId) (s : State) : Host.Outcome State Fault Refusal :=
  whileReleased s <| State.takeCommand sid fun m => match m with
    | .sweepStart k => some fun _ x => { x with pendingQuiesce := some k }
    | _ => none

/-- WITHDRAWAL_NOTICE: the pending quiesce sweep is cleared and the QUIESCE job removed (R119, R194). -/
def execWithdrawalNotice (sid : SliceId) (s : State) : Host.Outcome State Fault Refusal :=
  whileReleased s <| State.takeCommand sid fun m => match m with
    | .withdrawal => some fun _ x => (Slice.dropQuiesceJob { x with pendingQuiesce := none }).idleIfDone
    | _ => none

/-- INSPECT_LOOKUP: the slice reads its directory and returns the result; nothing else changes (R10, R204). -/
def execInspectLookup (sid : SliceId) (s : State) : Host.Outcome State Fault Refusal :=
  whileReleased s <| State.takeCommand sid fun m => match m with
    | .inspect l => some fun _ x => { x with toEngine := x.toEngine ++ [⟨.done, some (x.inspect l)⟩] }
    | _ => none

/-- The waiter of a Scrub: 64 zero bytes without Poison under a full mask (R24, R205). -/
def scrubWaiter (l : LineAddr) : Waiter :=
  ⟨.management, .scrub, l, some ⟨⟨zeroLine, false⟩, BitVec.allOnes 64⟩⟩

/-- SCRUB_ARRIVAL: started, queued, or completed with NO_RESOURCE (R32, R205). -/
def execScrubArrival (sid : SliceId) (s : State) : Host.Outcome State Fault Refusal :=
  whileReleased s <| State.takeCommand sid fun m => match m with
    | .scrub l => some fun env x =>
      (x.startOrQueue env (scrubWaiter l)).getD { x with toEngine := x.toEngine ++ [⟨.noResource, none⟩] }
    | _ => none

/-! ## The sweep engine -/

/-- The engine, between two sets, arrives at its position and begins a visit there (R123). -/
def Slice.arriveAtSet (s : Slice) : Slice :=
  if s.engine.visit = .travelling then { s with engine := { s.engine with visit := .waitingAtSet } } else s

/-- SWEEP_ARRIVAL (R120, R123). -/
def execSweepArrival (sid : SliceId) (s : State) : Host.Outcome State Fault Refusal :=
  whileReleased s <| State.sliceEvent sid false fun _ => Slice.arriveAtSet

end Sys2Proof.Machine
end

