-- ==== Sys2Proof/Machine/Registers.lean ====
section
/-!
DEFINITION. The register window as the board management controller reads it (12.4, R198, R200, R212). A register read changes
nothing, so it has no command; `readRegister` is the value that a read at an offset returns (log 23).
-/

namespace Sys2Proof.Machine

/-- A field of a register: the value at bit position k. -/
def fieldAt {w : Nat} (k : Nat) (x : BitVec w) : BitVec 32 := x.setWidth 32 <<< k

/-- One bit of a register. -/
def flagAt (k : Nat) (b : Bool) : BitVec 32 := fieldAt k (BitVec.ofBool b)

/-- Offset 0x04 (12.4). -/
def Mgmt.configWord (m : Mgmt) : BitVec 32 :=
  fieldAt 0 m.agentEnable ||| flagAt 8 m.exclusive ||| fieldAt 16 m.responseTimeout ||| fieldAt 24 m.flushTimeout

/-- The code of a command status (12.4, offset 0x14). -/
def CommandStatus.code : CommandStatus → BitVec 4
  | .none => 0
  | .running => 1
  | .busy => 2
  | .done => 3
  | .accepted => 4
  | .notApplicable => 5
  | .address => 6
  | .noResource => 7

/-- Offset 0x14 (12.4). -/
def Mgmt.statusWord (m : Mgmt) : BitVec 32 := fieldAt 0 m.status.code ||| flagAt 4 m.running

/-- Offset 0x18: the result of an Inspect (12.4). -/
def InspectResult.word (r : InspectResult) : BitVec 32 :=
  flagAt 0 r.present ||| flagAt 1 r.owned ||| fieldAt 2 r.sharers ||| fieldAt 10 (BitVec.ofNat 3 r.owner.val)
    ||| flagAt 13 r.reserved ||| fieldAt 14 (BitVec.ofNat 3 r.way.val) ||| fieldAt 17 (BitVec.ofNat 3 r.recency)
    ||| flagAt 20 r.held

/-- The code of a quiesce state (12.4, offset 0x1C). -/
def QuiesceState.code : QuiesceState → BitVec 2
  | .normal => 0
  | .flushing => 1
  | .sweeping => 2
  | .quiesced => 3

/-- The code of a last outcome (12.4, offset 0x1C). -/
def QuiesceOutcome.code : QuiesceOutcome → BitVec 2
  | .none => 0
  | .completed => 1
  | .aborted => 2

/-- Offset 0x1C (12.4). -/
def Mgmt.quiesceWord (m : Mgmt) : BitVec 32 :=
  fieldAt 0 m.quiesce.state.code ||| fieldAt 2 m.quiesce.outcome.code ||| fieldAt 8 m.quiesce.number ||| flagAt 16 m.memoryReady

/-- The code of a link state (12.4, offset 0x20 + 4n). -/
def LinkState.code : LinkState → BitVec 4
  | .offline => 0
  | .online => 1
  | .drainingSettling => 2
  | .drainingSweeping => 3
  | .fencedSweeping => 4
  | .fencedSwept => 5

/-- The code of an agent class (12.4, offset 0x20 + 4n). -/
def AgentClass.code : AgentClass → BitVec 2
  | .unset => 0
  | .caching => 1
  | .noncaching => 2

/-- Offset 0x20 + 4n (12.4). -/
def LinkStatus.word (l : LinkStatus) : BitVec 32 := fieldAt 0 l.state.code ||| fieldAt 4 l.cls.code

/-- The code of a fence cause (12.4, offset 0x40 + 8n). -/
def FenceCause.code : FenceCause → BitVec 3
  | .timeout => 1
  | .protocol => 2
  | .linkLost => 3
  | .dataCheck => 4
  | .flushTimeout => 5
  | .manual => 6

/-- The code of a channel (12.4, offset 0x40 + 8n). -/
def Channel.bit : Channel → Bool
  | .request => false
  | .reply => true

/-- Offset 0x40 + 8n: the fault record and the fault count (12.4). The channel and kind fields read as zero where the cause has none (12.4);
that the tag field does so where the record holds no tag is the model's choice (DESIGN CHOICE, log 34). -/
def LinkUnit.faultWord (u : LinkUnit) : BitVec 32 :=
  fieldAt 16 u.faultCount ||| (match u.faultRecord with
    | none => 0#32
    | some f =>
      fieldAt 0 f.cause.code
        ||| (match f.kind with
          | none => 0#32
          | some (c, k) => flagAt 3 (Channel.bit c) ||| fieldAt 4 k)
        ||| (match f.tag with
          | none => 0#32
          | some t => fieldAt 10 (BitVec.ofNat 4 t.val) ||| flagAt 14 true)
        ||| flagAt 15 f.line.isSome)

/-- Offset 0x44 + 8n: the fault record's line (12.4). Where a record that is not empty holds no line, it reads as zero (DESIGN CHOICE,
log 34). -/
def LinkUnit.faultLineWord (u : LinkUnit) : BitVec 32 :=
  match u.faultRecord.bind FaultRecord.line with
  | none => 0#32
  | some l => fieldAt 0 l

/-- Offset 0x80 + 8n (12.4). -/
def LinkUnit.countersWord (u : LinkUnit) : BitVec 32 := fieldAt 0 u.dataCheckFailures ||| fieldAt 16 u.discarded

/-- Offset 0xC4 (12.4). -/
def MemChannel.lastWord (m : MemChannel) : BitVec 32 :=
  match m.lastUncorrectable with
  | none => 0#32
  | some l => fieldAt 0 l ||| flagAt 31 true

/-- The agent whose register stands at an offset of a group that begins at `base` and gives each agent `stride` bytes. -/
def agentAt (off base stride : Nat) : Agent := ⟨(off - base) / stride % 8, Nat.mod_lt _ (by decide)⟩

/-- The registers that belong to one agent: 0x20 to 0x3C, 0x40 to 0x7C and 0x80 to 0xBC (12.4). -/
def State.readAgentRegister (s : State) (off : Nat) : BitVec 32 :=
  if off < 0x40 then (s.mgmt.linkCopy[agentAt off 0x20 4]).word
  else if off < 0x80 then
    let u := s.links[agentAt off 0x40 8]
    if off % 8 = 0 then u.faultWord else u.faultLineWord
  else
    let u := s.links[agentAt off 0x80 8]
    if off % 8 = 0 then u.countersWord else fieldAt 0 u.retries

/-- The value a register read at an offset returns; an offset that the map of 12.4 does not list reads as zero (R198, R200). -/
def State.readRegister (s : State) (off : BitVec 8) : BitVec 32 :=
  let o := off.toNat
  if o % 4 ≠ 0 then 0#32
  else if o < 0x20 then
    (if o = 0x04 then s.mgmt.configWord
    else if o = 0x08 then fieldAt 0 s.mgmt.alertMask
    else if o = 0x0C then fieldAt 0 s.mgmt.alerts
    else if o = 0x10 then s.mgmt.command
    else if o = 0x14 then s.mgmt.statusWord
    else if o = 0x18 then (match s.mgmt.result with
      | none => 0#32
      | some r => r.word)
    else if o = 0x1C then s.mgmt.quiesceWord
    else 0#32)
  else if o < 0xC0 then s.readAgentRegister o
  else if o = 0xC0 then fieldAt 0 s.mem.corrected ||| fieldAt 16 s.mem.uncorrectable
  else if o = 0xC4 then s.mem.lastWord
  else 0#32

/-- The management port's 7-bit I2C address: 0x4C plus the sampled ADDR1:0 (R197). -/
def State.portAddress (s : State) : BitVec 7 := 0x4C#7 + s.addr.setWidth 7

/-- The target acknowledges its own address, and nothing while a reset is applied (R197). -/
def State.acknowledges (s : State) (a : BitVec 7) : Bool := s.resetPin = .released && a = s.portAddress

/-- The bytes of a write transfer to an address that the target acknowledges, in order: the address byte, the offset byte and four
data bytes; further data bytes are not acknowledged (R197). -/
def State.writeAcknowledges (s : State) (a : BitVec 7) (bytes : Nat) : List Bool :=
  s.acknowledges a :: (List.range bytes).map fun k => s.acknowledges a && k < 5

/-- The first `k` bytes of a register read: the register at the offset pointer, least significant byte first, and 0x00 after
the fourth (R197). -/
def State.readTransfer (s : State) (k : Nat) : List Byte :=
  (List.range k).map fun j => if j < 4 then (s.readRegister s.mgmt.offset).extractLsb' (8 * j) 8 else 0#8

end Sys2Proof.Machine
end

