-- ==== Sys2Proof/Machine/ReplyChannel.lean ====
section
/-!
DEFINITION. Meanings of the events in which a link unit takes a message from the reply channel (R143 to R145).
-/

namespace Sys2Proof.Machine

/-- GONE: forwarded to the slice of its handle (R143). -/
def execGone (n : Agent) (h : Handle) (line : LineAddr) (s : State) : Host.Outcome State Fault Refusal :=
  messageEvent n true s fun s => s.replyChannelEvent n fun s => s.updLink n (LinkUnit.forward h (.reply h line .gone))

/-- CLEAN: forwarded to the slice of its handle (R143). -/
def execClean (n : Agent) (h : Handle) (line : LineAddr) (s : State) : Host.Outcome State Fault Refusal :=
  messageEvent n true s fun s => s.replyChannelEvent n fun s => s.updLink n (LinkUnit.forward h (.reply h line .clean))

/-- A Dirty reply in ONLINE or DRAINING: its data check is made first; one that passes is forwarded, and one that fails
is answered DataRetry with its handle, on the reply-retry list (R143, R144, R145). -/
def State.takeDirty (n : Agent) (m : DirtyMsg) (s : State) : State :=
  if m.check = dataCheck m.data.bytes then
    (s.dataCheckPassed n).updLink n (LinkUnit.forward m.handle (.reply m.handle m.line (.dirty m.data)))
  else s.dataCheckFailed n ⟨.dataCheck, some (.reply, kindDirty), some m.line, none⟩ (LinkUnit.queueReplyRetry m.handle)

/-- DIRTY (R143, R144). -/
def execDirty (n : Agent) (m : DirtyMsg) (s : State) : Host.Outcome State Fault Refusal :=
  messageEvent n true s fun s => s.replyChannelEvent n (State.takeDirty n m)

/-- GRANT_ACK: its handle leaves the confirm set, it is forwarded, and the drain's settling condition is tested in the
same event (R141, R143, R149). -/
def execGrantAck (n : Agent) (h : Handle) (s : State) : Host.Outcome State Fault Refusal :=
  messageEvent n true s fun s => s.replyChannelEvent n fun s => s.updLink n fun u =>
    (LinkUnit.forward h (.grantAck h) { u with confirm := u.confirm.erase h }).settleDrain

end Sys2Proof.Machine
end

