-- ==== Sys2Proof/Machine/RequestChannel.lean ====
section
/-!
DEFINITION. Meanings of the events in which a link unit takes a message from the request channel (R130, R133 to R139, R144,
R148, R210).
-/

namespace Sys2Proof.Machine

/-- HELLO (R133, R134, R135). -/
def execHello (n : Agent) (src : Take HelloMsg) (s : State) : Host.Outcome State Fault Refusal :=
  messageEvent n src.received s fun s => s.requestChannelEvent n (src.map ReqMsg.hello) fun m => match m with
    | .hello _ => true
    | _ => false

/-- DEPART (R137 step 4, R148). -/
def execDepart (n : Agent) (src : Take Unit) (s : State) : Host.Outcome State Fault Refusal :=
  messageEvent n src.received s fun s => s.requestChannelEvent n (src.map fun _ => ReqMsg.depart) fun m => match m with
    | .depart => true
    | _ => false

/-- FLUSH_DONE (R137 step 4, R138). -/
def execFlushDone (n : Agent) (src : Take Unit) (s : State) : Host.Outcome State Fault Refusal :=
  messageEvent n src.received s fun s => s.requestChannelEvent n (src.map fun _ => ReqMsg.flushDone) fun m => match m with
    | .flushDone => true
    | _ => false

/-- FETCH_SHARED (R137). -/
def execFetchShared (n : Agent) (src : Take TagLine) (s : State) : Host.Outcome State Fault Refusal :=
  messageEvent n src.received s fun s => s.requestChannelEvent n (src.map ReqMsg.fetchShared) fun m => match m with
    | .fetchShared _ => true
    | _ => false

/-- FETCH_OWNED (R137). -/
def execFetchOwned (n : Agent) (src : Take TagLine) (s : State) : Host.Outcome State Fault Refusal :=
  messageEvent n src.received s fun s => s.requestChannelEvent n (src.map ReqMsg.fetchOwned) fun m => match m with
    | .fetchOwned _ => true
    | _ => false

/-- PROMOTE (R137). -/
def execPromote (n : Agent) (src : Take TagLine) (s : State) : Host.Outcome State Fault Refusal :=
  messageEvent n src.received s fun s => s.requestChannelEvent n (src.map ReqMsg.promote) fun m => match m with
    | .promote _ => true
    | _ => false

/-- SNAPSHOT (R137). -/
def execSnapshot (n : Agent) (src : Take TagLine) (s : State) : Host.Outcome State Fault Refusal :=
  messageEvent n src.received s fun s => s.requestChannelEvent n (src.map ReqMsg.snapshot) fun m => match m with
    | .snapshot _ => true
    | _ => false

/-- MASKED_WRITE (R137, R144). -/
def execMaskedWrite (n : Agent) (src : Take MaskedWriteMsg) (s : State) : Host.Outcome State Fault Refusal :=
  messageEvent n src.received s fun s => s.requestChannelEvent n (src.map ReqMsg.maskedWrite) fun m => match m with
    | .maskedWrite _ => true
    | _ => false

/-- RETURN_DIRTY (R137, R144). -/
def execReturnDirty (n : Agent) (src : Take ReturnDirtyMsg) (s : State) : Host.Outcome State Fault Refusal :=
  messageEvent n src.received s fun s => s.requestChannelEvent n (src.map ReqMsg.returnDirty) fun m => match m with
    | .returnDirty _ => true
    | _ => false

/-- RETURN_CLEAN (R137). -/
def execReturnClean (n : Agent) (src : Take TagLine) (s : State) : Host.Outcome State Fault Refusal :=
  messageEvent n src.received s fun s => s.requestChannelEvent n (src.map ReqMsg.returnClean) fun m => match m with
    | .returnClean _ => true
    | _ => false

/-- MESSAGE_FAILING_FORM_TEST: a protocol fault in ONLINE and DRAINING, and otherwise discarded and counted; on the
request channel a message that arrives behind a waiting one waits with it (R136, R210). -/
def execMessageFailingFormTest (n : Agent) (src : Take MalformedMsg) (s : State) : Host.Outcome State Fault Refusal :=
  let waitingOne (m : ReqMsg) : Bool := match m with
    | .malformed _ => true
    | _ => false
  match src with
  | .waiting => messageEvent n false s fun s => s.requestChannelEvent n .waiting waitingOne
  | .arriving m =>
    if failsForm m then
      messageEvent n true s fun s => match m.channel with
        | .request => s.requestChannelEvent n (.arriving (.malformed m)) waitingOne
        | .reply => s.replyChannelEvent n (State.takeCause n (formFault m))
    else .refused .illFormed

end Sys2Proof.Machine
end

