-- ==== Sys2Proof/Machine/Resets.lean ====
section
/-!
DEFINITION. Meanings of the reset pins (R208, R209): what each block takes at power-on reset and at hard reset (R21, R43,
R129, R154, R170, R185, R186, R196), and the releases with their straps (R1, R183, R184, R197).
-/

namespace Sys2Proof.Machine

/-- A slice at either reset; the model's own counter of choices goes on (log 4). -/
def Slice.atReset (s : Slice) : Slice := { Slice.initial with picks := s.picks }

/-- A link unit at hard reset: the counters, the fault record and the fault count are kept (R154), and the messages that wait in the
request channel are discarded and counted, because the link is held down (R132). -/
def LinkUnit.hardReset (u : LinkUnit) : LinkUnit :=
  { LinkUnit.initial with
    dataCheckFailures := u.dataCheckFailures
    discarded := u.discardWaiting.discarded
    retries := u.retries
    faultRecord := u.faultRecord
    faultCount := u.faultCount }

/-- The management unit at hard reset: the fault items and the memory uncorrectable item are kept; memory ready is set unless a
clear is still running (R209). -/
def Mgmt.hardReset (clearRunning : Bool) (m : Mgmt) : Mgmt :=
  { Mgmt.initial with alerts := m.alerts &&& alertsKept, memoryReady := !clearRunning }

/-- The memory channel at hard reset: the DRAM with its clear and the error state are kept (R184, R185). -/
def MemChannel.hardReset (m : MemChannel) : MemChannel := { m with queue := [], lastServed := 3, completions := [] }

/-- The part in power-on reset (R208). The clear stands at line 0 and starts at the release (R183). -/
def State.powerOnReset (s : State) : State :=
  { s with
    links := Vector.replicate 8 LinkUnit.initial
    slices := s.slices.map Slice.atReset
    mem := { MemChannel.initial with dram := s.mem.dram.powerOn }
    mgmt := Mgmt.initial
    resetPin := .powerOn }

/-- POWER_ON_RESET: PWRGOOD is deasserted (R208). -/
def execPowerOnReset (s : State) : Host.Outcome State Fault Refusal := .next s.powerOnReset

/-- The part in hard reset (R208). -/
def State.hardReset (s : State) : State :=
  { s with
    links := s.links.map LinkUnit.hardReset
    slices := s.slices.map Slice.atReset
    mem := s.mem.hardReset
    mgmt := s.mgmt.hardReset s.mem.dram.clearRunning
    resetPin := .hard }

/-- HARD_RESET: RESET_N is asserted. Where both resets apply the part is in power-on reset (R208). -/
def execHardReset (s : State) : Host.Outcome State Fault Refusal :=
  .next (if s.resetPin = .powerOn then s else s.hardReset)

/-- The straps are sampled and the part runs (R1, R197, R208). -/
def State.release (msize : Bool) (addr : BitVec 2) (s : State) : State :=
  { s with resetPin := .released, msize := msize, addr := addr }

/-- POWER_ON_RESET_RELEASE: PWRGOOD is asserted, hard reset being released with it; the clear runs from line 0 (R183, R208).
Out of power-on reset there is no such event (log 1). -/
def execPowerOnResetRelease (msize : Bool) (addr : BitVec 2) (s : State) : Host.Outcome State Fault Refusal :=
  .next (if s.resetPin = .powerOn then s.release msize addr else s)

/-- A clear that runs on, under the pool size in force after the release: where it has already come that far it completes
(R184, log 21). -/
def State.finishShortClear (s : State) : State :=
  if s.mem.dram.clearRunning && s.poolLines ≤ s.mem.dram.clearPosition then s.completeClear else s

/-- HARD_RESET_RELEASE: RESET_N is deasserted (R184, R208). Out of hard reset there is no such event (log 1). -/
def execHardResetRelease (msize : Bool) (addr : BitVec 2) (s : State) : Host.Outcome State Fault Refusal :=
  .next (if s.resetPin = .hard then (s.release msize addr).finishShortClear else s)

end Sys2Proof.Machine
end

