-- ==== Sys2Proof/Machine/Dispatch.lean ====
section
/-!
DEFINITION. What each command does, one arm for each constructor of Instr.
-/

namespace Sys2Proof.Machine

/-- The effect of a command on everything but the queue. -/
def exec (i : Instr) (s : State) : Host.Outcome State Fault Refusal :=
  match i with
  | .hello n src => Sys2Proof.Machine.execHello n src s
  | .depart n src => Sys2Proof.Machine.execDepart n src s
  | .flushDone n src => Sys2Proof.Machine.execFlushDone n src s
  | .fetchShared n src => Sys2Proof.Machine.execFetchShared n src s
  | .fetchOwned n src => Sys2Proof.Machine.execFetchOwned n src s
  | .promote n src => Sys2Proof.Machine.execPromote n src s
  | .snapshot n src => Sys2Proof.Machine.execSnapshot n src s
  | .maskedWrite n src => Sys2Proof.Machine.execMaskedWrite n src s
  | .returnDirty n src => Sys2Proof.Machine.execReturnDirty n src s
  | .returnClean n src => Sys2Proof.Machine.execReturnClean n src s
  | .gone n h line => Sys2Proof.Machine.execGone n h line s
  | .clean n h line => Sys2Proof.Machine.execClean n h line s
  | .dirty n m => Sys2Proof.Machine.execDirty n m s
  | .grantAck n h => Sys2Proof.Machine.execGrantAck n h s
  | .linkDown n => Sys2Proof.Machine.execLinkDown n s
  | .responseDeparts n => Sys2Proof.Machine.execResponseDeparts n s
  | .probeDelivered n => Sys2Proof.Machine.execProbeDelivered n s
  | .finalResponseTaken n sid => Sys2Proof.Machine.execFinalResponseTaken n sid s
  | .probeTaken n sid => Sys2Proof.Machine.execProbeTaken n sid s
  | .flushRequest n => Sys2Proof.Machine.execFlushRequest n s
  | .timeoutReport n sid => Sys2Proof.Machine.execTimeoutReport n sid s
  | .faultReport n sid => Sys2Proof.Machine.execFaultReport n sid s
  | .flushTimeoutReport n => Sys2Proof.Machine.execFlushTimeoutReport n s
  | .drainCompletionReport n sid => Sys2Proof.Machine.execDrainCompletionReport n sid s
  | .fenceCompletionReport n sid => Sys2Proof.Machine.execFenceCompletionReport n sid s
  | .discardNotice n => Sys2Proof.Machine.execDiscardNotice n s
  | .memoryClearReport n => Sys2Proof.Machine.execMemoryClearReport n s
  | .requestArrival sid n => Sys2Proof.Machine.execRequestArrival sid n s
  | .returnArrival sid n => Sys2Proof.Machine.execReturnArrival sid n s
  | .replyGone sid n => Sys2Proof.Machine.execReplyGone sid n s
  | .replyClean sid n => Sys2Proof.Machine.execReplyClean sid n s
  | .replyDirty sid n => Sys2Proof.Machine.execReplyDirty sid n s
  | .grantAckArrival sid n => Sys2Proof.Machine.execGrantAckArrival sid n s
  | .responseDeadlineExpiry h => Sys2Proof.Machine.execResponseDeadlineExpiry h s
  | .memoryReadCompletion line => Sys2Proof.Machine.execMemoryReadCompletion line s
  | .operationSubmitted => Sys2Proof.Machine.execOperationSubmitted s
  | .read line ecc => Sys2Proof.Machine.execRead line ecc s
  | .fullWrite line => Sys2Proof.Machine.execFullWrite line s
  | .mergeWrite line ecc => Sys2Proof.Machine.execMergeWrite line ecc s
  | .poisonWrite line ecc => Sys2Proof.Machine.execPoisonWrite line ecc s
  | .memoryClearComplete => Sys2Proof.Machine.execMemoryClearComplete s
  | .memoryReady => Sys2Proof.Machine.execMemoryReady s
  | .fenceNotice sid n => Sys2Proof.Machine.execFenceNotice sid n s
  | .drainNotice sid n => Sys2Proof.Machine.execDrainNotice sid n s
  | .drainSweepNotice sid n => Sys2Proof.Machine.execDrainSweepNotice sid n s
  | .releaseNotice sid n => Sys2Proof.Machine.execReleaseNotice sid n s
  | .sweepStartNotice sid => Sys2Proof.Machine.execSweepStartNotice sid s
  | .withdrawalNotice sid => Sys2Proof.Machine.execWithdrawalNotice sid s
  | .sweepArrival sid => Sys2Proof.Machine.execSweepArrival sid s
  | .inspectLookup sid => Sys2Proof.Machine.execInspectLookup sid s
  | .scrubArrival sid => Sys2Proof.Machine.execScrubArrival sid s
  | .quiesceFlushDone n => Sys2Proof.Machine.execQuiesceFlushDone n s
  | .linkStateReport n => Sys2Proof.Machine.execLinkStateReport n s
  | .flushTimerExpiry => Sys2Proof.Machine.execFlushTimerExpiry s
  | .quiesceCompletionReport sid => Sys2Proof.Machine.execQuiesceCompletionReport sid s
  | .detach arg => Sys2Proof.Machine.execDetach arg s
  | .fence arg => Sys2Proof.Machine.execFence arg s
  | .releaseFence arg => Sys2Proof.Machine.execReleaseFence arg s
  | .clearFault arg => Sys2Proof.Machine.execClearFault arg s
  | .quiesce arg => Sys2Proof.Machine.execQuiesce arg s
  | .resume arg => Sys2Proof.Machine.execResume arg s
  | .inspect arg => Sys2Proof.Machine.execInspect arg s
  | .scrub arg => Sys2Proof.Machine.execScrub arg s
  | .undefinedCommandCode code arg => Sys2Proof.Machine.execUndefinedCommandCode code arg s
  | .commandOutcome => Sys2Proof.Machine.execCommandOutcome s
  | .configurationWrite offset value => Sys2Proof.Machine.execConfigurationWrite offset value s
  | .alertStatusWrite value => Sys2Proof.Machine.execAlertStatusWrite value s
  | .offsetWrite offset => Sys2Proof.Machine.execOffsetWrite offset s
  | .shortWrite offset data => Sys2Proof.Machine.execShortWrite offset data s
  | .registerWriteNoEffect offset value => Sys2Proof.Machine.execRegisterWriteNoEffect offset value s
  | .powerOnReset => Sys2Proof.Machine.execPowerOnReset s
  | .powerOnResetRelease msize addr => Sys2Proof.Machine.execPowerOnResetRelease msize addr s
  | .hardReset => Sys2Proof.Machine.execHardReset s
  | .hardResetRelease msize addr => Sys2Proof.Machine.execHardResetRelease msize addr s
  | .messageFailingFormTest n src => Sys2Proof.Machine.execMessageFailingFormTest n src s

end Sys2Proof.Machine
end

