-- ==== Sys2Proof/Machine/Time.lean ====
section
/-!
DEFINITION. The passing of one millisecond, which is what a step does on an empty queue (log 2): the clock goes on, and a
running memory clear writes as many lines as the free value of Config gives (R40, R183; log 5).
-/

namespace Sys2Proof.Machine

/-- The clear runs on from its position, short of its completion, which is a command of its own (R183). -/
def Dram.clearOn (k lines : Nat) (d : Dram) : Dram :=
  if d.clearRunning then d.clearTo (min (d.clearPosition + k) (lines - 1)) else d

/-- One millisecond passes. The clear does not run while power-on reset is applied, and runs on through a hard reset (R183,
R184). -/
def State.idleTick (s : State) : State :=
  let t : State := { s with now := s.now + 1 }
  if s.resetPin = .powerOn then t
  else t.updMem fun m => { m with dram := m.dram.clearOn (Config.clearProgress s.now) s.poolLines }

end Sys2Proof.Machine
end

