-- ==== Sys2Proof/Machine/Formats.lean ====
section
/-!
DEFINITION. The messages of the agent links as bytes (12.1, 12.2): how a received message reads as a message of its channel, and
the bytes of each message that leaves for an agent; and which command a write transfer of the management
port is (R197, 12.4). The commands and the state carry the messages with their fields named.
-/

namespace Sys2Proof.Machine

/-! ## Bytes -/

/-- The bytes of a multi-byte field, least significant first (Chapter 12). -/
def bytesLE (k : Nat) {w : Nat} (x : BitVec w) : List Byte := (List.range k).map fun j => x.extractLsb' (8 * j) 8

/-- The field that some bytes spell, least significant first. -/
def fromBytesLE (w : Nat) : List Byte → BitVec w
  | [] => 0#w
  | b :: bs => b.setWidth w ||| (fromBytesLE w bs <<< 8)

/-- The header of a message: its first 8 bytes (12.1). Where a message ends before its header does, free values stand for the
bytes that it lacks (log 31). -/
def headerOf (bs : List Byte) : BitVec 64 :=
  fromBytesLE 64 ((List.range 8).map fun k => bs.getD k (Config.missingHeaderByte bs.length k))

/-- 64 line bytes from position `at` of a message. -/
def lineBytesAt (start : Nat) (bs : List Byte) : LineData := Vector.ofFn fun i => bs.getD (start + i.val) 0#8

/-- A field of a header: the value at bit position k. -/
def headerField {w : Nat} (k : Nat) (x : BitVec w) : BitVec 64 := x.setWidth 64 <<< k

/-- Header bits 16:10, the handle (12.1). -/
def headerHandle (h : BitVec 64) : Handle := (h.extractLsb' 10 7).toFin

/-- Header bit 17, the Poison attribute (12.1). -/
def headerPoison (h : BitVec 64) : Bool := h.getLsbD 17

/-! ## Received messages (12.1, 12.2, R210) -/

/-- A message of correct form of the request channel. -/
def readRequestBody (h : BitVec 64) (bs : List Byte) : ReqMsg :=
  let code := headerKind h
  let tl : TagLine := ⟨headerTag h, headerLine h⟩
  let data : Poisoned := ⟨lineBytesAt 8 bs, headerPoison h⟩
  if code = kindHello then .hello ⟨h.extractLsb' 18 3, h.extractLsb' 60 4⟩
  else if code = kindDepart then .depart
  else if code = kindFlushDone then .flushDone
  else if code = kindFetchShared then .fetchShared tl
  else if code = kindFetchOwned then .fetchOwned tl
  else if code = kindPromote then .promote tl
  else if code = kindSnapshot then .snapshot tl
  else if code = kindMaskedWrite then
    .maskedWrite ⟨tl.tag, tl.line, ⟨data, fromBytesLE 64 ((bs.drop 72).take 8)⟩, fromBytesLE 16 (bs.drop 80)⟩
  else if code = kindReturnDirty then .returnDirty ⟨tl.tag, tl.line, data, fromBytesLE 16 (bs.drop 72)⟩
  else .returnClean tl

/-- A delimited message of the request channel as the link unit reads it: the form test first (R210), then its parts; fields
that the kind does not use are ignored. -/
def readRequest (bs : List Byte) : ReqMsg :=
  let m : MalformedMsg := ⟨.request, headerOf bs, bs.length⟩
  if failsForm m then .malformed m else readRequestBody m.header bs

/-- The command that a delimited message of the reply channel, arriving at LUn, is (12.1, 12.2, R210). -/
def readReply (n : Agent) (bs : List Byte) : Instr :=
  let h := headerOf bs
  let m : MalformedMsg := ⟨.reply, h, bs.length⟩
  if failsForm m then .messageFailingFormTest n (.arriving m)
  else if headerKind h = kindGone then .gone n (headerHandle h) (headerLine h)
  else if headerKind h = kindClean then .clean n (headerHandle h) (headerLine h)
  else if headerKind h = kindDirty then
    .dirty n ⟨headerHandle h, headerLine h, ⟨lineBytesAt 8 bs, headerPoison h⟩, fromBytesLE 16 (bs.drop 72)⟩
  else .grantAck n (headerHandle h)

/-- The command that a message of the request channel, arriving at LUn, is. -/
def ReqMsg.command (n : Agent) : ReqMsg → Instr
  | .hello m => .hello n (.arriving m)
  | .depart => .depart n (.arriving ())
  | .flushDone => .flushDone n (.arriving ())
  | .fetchShared m => .fetchShared n (.arriving m)
  | .fetchOwned m => .fetchOwned n (.arriving m)
  | .promote m => .promote n (.arriving m)
  | .snapshot m => .snapshot n (.arriving m)
  | .maskedWrite m => .maskedWrite n (.arriving m)
  | .returnDirty m => .returnDirty n (.arriving m)
  | .returnClean m => .returnClean n (.arriving m)
  | .malformed m => .messageFailingFormTest n (.arriving m)

/-! ## Sent messages (12.1, 12.2) -/

/-- The code of a Retry cause (12.2). -/
def RetryCause.code : RetryCause → BitVec 3
  | .busy => 1
  | .quiesced => 2
  | .selfOwned => 3

/-- The code of a Refused cause (12.2). -/
def RefusedCause.code : RefusedCause → BitVec 3
  | .address => 1
  | .notOnline => 2
  | .departing => 3

/-- A header from its kind code, with the tag field. -/
def tagHeader (code : BitVec 6) (t : Tag) : BitVec 64 := headerField 0 code ||| headerField 6 (BitVec.ofNat 4 t.val)

/-- The handle field of a header. -/
def handleField (h : Handle) : BitVec 64 := headerField 10 (BitVec.ofNat 7 h.val)

/-- The Poison field of a header. -/
def poisonField (p : Bool) : BitVec 64 := headerField 17 (BitVec.ofBool p)

/-- The bytes of a final response (12.1, 12.2). -/
def Response.bytes : Response → List Byte
  | .grantShared t h d => bytesLE 8 (tagHeader 0x01 t ||| handleField h ||| poisonField d.poison) ++ d.bytes.toList
  | .grantOwned t h d => bytesLE 8 (tagHeader 0x02 t ||| handleField h ||| poisonField d.poison) ++ d.bytes.toList
  | .grantPromote t h => bytesLE 8 (tagHeader 0x03 t ||| handleField h)
  | .snapshotData t d => bytesLE 8 (tagHeader 0x04 t ||| poisonField d.poison) ++ d.bytes.toList
  | .writeDone t => bytesLE 8 (tagHeader 0x05 t)
  | .returnDone t => bytesLE 8 (tagHeader 0x08 t)
  | .retry t c => bytesLE 8 (tagHeader 0x09 t ||| headerField 18 c.code)
  | .dataRetry t => bytesLE 8 (tagHeader 0x0A t ||| headerField 18 1#3)
  | .refused t c => bytesLE 8 (tagHeader 0x0B t ||| headerField 18 c.code)

/-- The bytes of a link-control message; Welcome carries the revision 1 and the session parameters (12.1, 12.2, R133). -/
def Control.bytes : Control → List Byte
  | .welcome lines timeout =>
    bytesLE 8 (headerField 0 0x10#6 ||| headerField 60 1#4) ++ bytesLE 4 (BitVec.ofNat 32 lines) ++ [64#8, 16#8, timeout, 0#8]
  | .helloRefusedDisabled => bytesLE 8 (headerField 0 0x11#6 ||| headerField 18 1#3)
  | .helloRefusedRevision => bytesLE 8 (headerField 0 0x11#6 ||| headerField 18 2#3)
  | .farewell => bytesLE 8 (headerField 0 0x12#6)
  | .flushRequest => bytesLE 8 (headerField 0 0x13#6)

/-- The bytes of a message of the response channel; a DataRetry of the reply-retry list has the handle form (12.2). -/
def Outbound.bytes : Outbound → List Byte
  | .final r => Response.bytes r
  | .control c => Control.bytes c
  | .replyRetry h => bytesLE 8 (headerField 0 0x0A#6 ||| handleField h ||| headerField 18 2#3)

/-- The code of a probe kind (12.2). -/
def ProbeKind.code : ProbeKind → BitVec 6
  | .revoke => 1
  | .demote => 2
  | .peek => 3

/-- The bytes of a probe: kind, handle and line (R68, 12.1). -/
def Probe.bytes (p : Probe) : List Byte :=
  bytesLE 8 (headerField 0 p.kind.code ||| handleField p.handle ||| headerField 24 p.line)

/-! ## Write transfers of the management port (R197, 12.4) -/

/-- The command that a value written to the command offset is: the code in bits 3:0, the rest of the value behind it (12.4,
R212). -/
def commandOf (code : BitVec 4) (arg : BitVec 28) : Instr :=
  if code = 1 then .detach arg
  else if code = 2 then .fence arg
  else if code = 3 then .releaseFence arg
  else if code = 4 then .clearFault arg
  else if code = 5 then .quiesce arg
  else if code = 6 then .resume arg
  else if code = 7 then .inspect arg
  else if code = 8 then .scrub arg
  else .undefinedCommandCode code arg

/-- The command that a register write is, by the kind of its offset (R198, 12.4). -/
def registerWrite (off : BitVec 8) (value : BitVec 32) : Instr :=
  if off = offConfig || off = offAlertMask then .configurationWrite off value
  else if off = offAlertStatus then .alertStatusWrite value
  else if off = offCommand then commandOf (value.extractLsb' 0 4) (value.extractLsb' 4 28)
  else .registerWriteNoEffect off value

/-- The command that a transfer in the write direction is, from the bytes after its address byte: the offset, and no data byte,
one to three, or four, what follows the fourth having no effect (R197). Without an offset byte there is none. -/
def writeTransfer : List Byte → Option Instr
  | [] => none
  | [off] => some (.offsetWrite off)
  | off :: a :: b :: c :: d :: _ => some (registerWrite off (fromBytesLE 32 [a, b, c, d]))
  | off :: data => some (.shortWrite off data)

/-- The command that a write transfer to an address is: a transfer to another address, or in a reset, is not acknowledged and
is none (R197). -/
def State.writeTransferTo (s : State) (a : BitVec 7) (bs : List Byte) : Option Instr :=
  if s.acknowledges a then writeTransfer bs else none

end Sys2Proof.Machine
end

