-- ==== Sys2Proof/Safety.lean ====
section
/-!
DEFINITION. What the statements about the machine speak of: the bounds and invariants that the manual gives its state, the
condition under which nothing follows from an event at a slice, and the frames of the events.
-/

namespace Sys2Proof.Machine

/-! ## Invariants -/

/-- The DRAM's data stand in their one canonical form (log 11). -/
def State.memoryCanonical (s : State) : Prop := Memory.wf s.mem.dram = true

/-- At most 16 tag places are reserved (R136), the consecutive-failure count runs from 0 to 16 (R145), and the confirm set
(R141) and the reply-retry list (R146) hold no handle twice. Nothing waits in the request channel of a FENCED link, whose hold
discarded it (R132, log 10). -/
def LinkUnit.bounded (u : LinkUnit) : Prop :=
  u.reservations ≤ 16 ∧ u.consecutive ≤ 16 ∧ u.confirm.Nodup ∧ (∀ h : Handle, u.responses.count (.replyRetry h) ≤ 1)
    ∧ (u.state ∈ [.fencedSweeping, .fencedSwept] → u.requestChannel = [])

/-- At most 48 waiters (R31), and the sweep position is a set index (R117). -/
def Slice.bounded (x : Slice) : Prop := x.waitQueue.length ≤ 48 ∧ x.engine.position < 2048

/-- The bounds that the manual gives the part's state; beside those of the link units and slices, the 64 places of the memory
request queue (R174), and timeouts of at least 1 (R199). -/
def State.bounded (s : State) : Prop :=
  (∀ n : Agent, s.links[n].bounded) ∧ (∀ sid : SliceId, s.slices[sid].bounded) ∧ s.mem.queue.length ≤ 64
    ∧ s.mgmt.responseTimeout ≠ 0#8 ∧ s.mgmt.flushTimeout ≠ 0#8

/-- The record holds the line: in use, with the line as its request line or its victim line (R29). -/
def Record.holds (r : Record) (l : LineAddr) : Prop := r.phase ≠ .free ∧ (r.line = l ∨ r.victim = some l)

/-- At most one record of the slice holds any one line (R29). -/
def Slice.soleHolders (x : Slice) : Prop :=
  ∀ (l : LineAddr) (i j : RecIdx), x.records[i].holds l → x.records[j].holds l → i = j

/-- At most one transaction record holds any one line at a time, in every slice (R29). -/
def State.soleHolders (s : State) : Prop := ∀ sid : SliceId, s.slices[sid].soleHolders

/-- The way holds an entry or a reservation with the tag. -/
def Way.carries (y : Way) (t : BitVec 15) : Prop := (∃ e, y = .occupied t e) ∨ ∃ h, y = .reserved t h

/-- The lines that a slice's records, waiters and pending lines name belong to the slice (R3). -/
def Slice.linesAtHome (sid : SliceId) (x : Slice) : Prop :=
  (∀ i : RecIdx, x.records[i].phase ≠ .free →
    sliceOf x.records[i].line = sid ∧ ∀ v, x.records[i].victim = some v → sliceOf v = sid)
  ∧ (∀ w ∈ x.waitQueue, sliceOf w.line = sid) ∧ ∀ l ∈ x.engine.pendingLines, sliceOf l = sid

/-- Every line stands at the slice that the address function gives it: in the slices, in the requests and returns on the message
paths, and in the Scrubs on the command paths (R3, R131, R205). -/
def State.linesAtHome (s : State) : Prop :=
  (∀ sid : SliceId, s.slices[sid].linesAtHome sid)
  ∧ (∀ (n : Agent) (sid : SliceId),
    (∀ k t l w, SliceMsg.request k t l w ∈ s.links[n].toSlice[sid] → sliceOf l = sid)
      ∧ ∀ t l d, SliceMsg.returned t l d ∈ s.links[n].toSlice[sid] → sliceOf l = sid)
  ∧ ∀ (sid : SliceId) (l : LineAddr), CommandMsg.scrub l ∈ s.mgmt.cmdPath[sid] → sliceOf l = sid

/-- No two ways of a set carry one line's tag (R7). -/
def Slice.oneWayPerLine (x : Slice) : Prop :=
  ∀ (p : Nat) (v w : WayIdx) (t : BitVec 15),
    ((x.getSet p).ways[v]).carries t → ((x.getSet p).ways[w]).carries t → v = w

/-- The recency order of a set lists exactly its OCCUPIED ways, none twice (R13). -/
def DirSet.recencyExact (d : DirSet) : Prop :=
  d.recency.Nodup ∧ ∀ w : WayIdx, w ∈ d.recency ↔ ∃ t e, d.ways[w] = .occupied t e

/-- A RESERVED way's handle names a record of the slice that is in use and has the reservation's line as its request line
(R8). -/
def Slice.reservationsOwned (sid : SliceId) (x : Slice) : Prop :=
  ∀ (p : Nat) (w : WayIdx) (t : BitVec 15) (h : Handle), (x.getSet p).ways[w] = .reserved t h →
    handleSlice h = sid ∧ x.records[handleIdx h].phase ≠ .free
      ∧ setOf x.records[handleIdx h].line = p ∧ tagOf x.records[handleIdx h].line = t

/-- A victim line stands in the set of its record's request line, and as long as it has its entry the request line has no way
(R110 to R112, R114). -/
def Slice.victimsApart (x : Slice) : Prop :=
  ∀ (i : RecIdx) (v : LineAddr), x.records[i].phase ≠ .free → x.records[i].victim = some v →
    setOf v = setOf x.records[i].line ∧ tagOf v ≠ tagOf x.records[i].line
      ∧ (x.entryOf v ≠ none → ∀ w : WayIdx, ¬((x.getSet (setOf v)).ways[w]).carries (tagOf x.records[i].line))

/-- A SHARED entry names an agent, and so does a plan to grant one (R6). -/
def Slice.sharersExist (x : Slice) : Prop :=
  (∀ (p : Nat) (w : WayIdx) (t : BitVec 15) (a : AgentSet), (x.getSet p).ways[w] = .occupied t (.shared a) → a ≠ 0#8)
  ∧ ∀ (i : RecIdx) (a : AgentSet), x.records[i].plan = .grantShared a → a ≠ 0#8

/-- What the manual says of a slice's directory at every moment (R6 to R8, R13), its table in canonical form. -/
def Slice.directoryConsistent (sid : SliceId) (x : Slice) : Prop :=
  Sparse.wf DirSet.empty x.dir = true ∧ x.oneWayPerLine ∧ (∀ p, (x.getSet p).recencyExact) ∧ x.reservationsOwned sid
    ∧ x.victimsApart ∧ x.sharersExist

/-- Every slice's directory is consistent (R6 to R8, R13). -/
def State.directoryConsistent (s : State) : Prop := ∀ sid : SliceId, s.slices[sid].directoryConsistent sid

/-! ## Nothing follows -/

/-- No operation that a FREE record ordered is in the submission list: a record does not end while one is (R173). -/
def Slice.freeRecordsIdle (x : Slice) : Prop := ∀ i : RecIdx, x.records[i].phase = .free → x.noOps i = true

/-- In every slice, no FREE record has an operation in the submission list (R173). -/
def State.freeRecordsIdle (s : State) : Prop := ∀ sid : SliceId, s.slices[sid].freeRecordsIdle

/-- While the start-up clear runs no operation is performed (R183), so nothing is stored that the clear has not cleared. -/
def State.clearStoresNothing (s : State) : Prop :=
  s.mem.dram.clearRunning = true → s.mem.dram.cells = [] ∧ s.mem.dram.marks = [] ∧ s.mem.dram.known = []

/-- Nothing follows at the slice: no eviction completes (R114), no waiter can start (R38), no record can go on (R28, R59,
R99, R107), and the sweep engine has nothing to do (R120 to R124, R191). Every event leaves its slice so (log 17). -/
def Slice.still (env : Env) (x : Slice) : Prop :=
  x.findEviction = none ∧ x.arbitrate env = none ∧ x.progressAny env = none ∧ x.engineAct env = none

/-! ## The parts of an event -/

/-- `m` is the message of the request channel that a command with source `src` presents to LUn, and `rest` waits behind it: it
is arriving and none waits, or it waits at the head of the channel (R130, R136). -/
def LinkUnit.presents (u : LinkUnit) (src : Take ReqMsg) (m : ReqMsg) (rest : List ReqMsg) : Prop :=
  (src = .arriving m ∧ u.requestChannel = [] ∧ rest = []) ∨ (src = .waiting ∧ u.requestChannel = m :: rest)

/-- The link unit after it has accepted a tagged message: a tag place is reserved (R136), the tag is OUTSTANDING (R139), and `x`
is on the path to slice `sid` (R131). -/
def LinkUnit.accepted (rest : List ReqMsg) (tag : Tag) (sid : SliceId) (x : SliceMsg) (u : LinkUnit) : LinkUnit :=
  { u with
    requestChannel := rest
    reservations := u.reservations + 1
    tags := u.tags.set tag true
    toSlice := u.toSlice.set sid (u.toSlice[sid] ++ [x]) }

/-- The link unit after it has answered a tagged message itself: a tag place is reserved (R136), and the response is in it. -/
def LinkUnit.answered (rest : List ReqMsg) (r : Response) (u : LinkUnit) : LinkUnit :=
  { u with requestChannel := rest, reservations := u.reservations + 1, responses := u.responses ++ [.final r] }

/-- The link unit after the tag place of a tagged message is reserved and nothing else has been done (R136). -/
def LinkUnit.reserved (rest : List ReqMsg) (u : LinkUnit) : LinkUnit :=
  { u with requestChannel := rest, reservations := u.reservations + 1 }

/-- The front message of the message path from LUn to slice `sid` has been taken; `ms` is left. -/
def State.afterSliceMsg (s : State) (sid : SliceId) (n : Agent) (ms : List SliceMsg) : State :=
  s.updLink n fun u => { u with toSlice := u.toSlice.set sid ms }

/-- The front notice of the notice path from LUn to slice `sid` has been taken; `xs` is left. -/
def State.afterNotice (s : State) (sid : SliceId) (n : Agent) (xs : List Notice) : State :=
  s.updLink n fun u => { u with notices := u.notices.set sid xs }

/-- The front message of the path from slice `sid` to LUn has been taken; `ms` is left. -/
def State.afterLinkMsg (s : State) (sid : SliceId) (n : Agent) (ms : List LinkMsg) : State :=
  s.updSlice sid fun x => { x with toLink := x.toLink.set n ms }

/-- The front message of the command path to slice `sid` has been taken; `ms` is left. -/
def State.afterCommand (s : State) (sid : SliceId) (ms : List CommandMsg) : State :=
  s.updMgmt fun m => { m with cmdPath := m.cmdPath.set sid ms }

/-- The slice with a message at the back of its path to LUn (R131). -/
def Slice.sends (x : Slice) (n : Agent) (m : LinkMsg) : Slice := { x with toLink := x.toLink.set n (x.toLink[n] ++ [m]) }

/-- The slice with a probe at the back of its path to every agent of the set (R68). -/
def Slice.probes (x : Slice) (a : AgentSet) (p : Probe) : Slice :=
  { x with toLink := Vector.ofFn fun n => if a.getLsbD n.val then x.toLink[n] ++ [.probe p] else x.toLink[n] }

/-- The waits that a record takes on the agents of a set when it probes them, in agent order (R68). -/
def waitsOnAgents (a : AgentSet) (role : Role) (k : ProbeKind) : List Wait :=
  ((List.finRange 8).filter fun n => a.getLsbD n.val).map fun n => ⟨n, role, k, .awaitingReply⟩

/-- The deadline of a record that begins in this event to await the agents of a set (R40). -/
def Env.deadlineFor (env : Env) (a : AgentSet) : Deadline := if a = 0#8 then .stopped else .running (env.now + env.timeout)

/-- The slice with an operation at the back of its submission list (R173). -/
def Slice.orders (x : Slice) (op : MemOp) (owner : OpOwner) : Slice :=
  { x with submission := x.submission ++ [⟨op, owner⟩] }

/-- The slice with way w of set p replaced. -/
def Slice.withWay (x : Slice) (p : Nat) (w : WayIdx) (y : Way) : Slice :=
  x.putSet p { x.getSet p with ways := (x.getSet p).ways.set w y }

/-- The slice with way w of set p replaced, and out of the set's recency order (R15). -/
def Slice.withWayOut (x : Slice) (p : Nat) (w : WayIdx) (y : Way) : Slice :=
  x.putSet p ⟨(x.getSet p).ways.set w y, (x.getSet p).recency.erase w⟩

/-- The slice with way w of set p replaced, and at the front of the set's recency order (R14). -/
def Slice.withWayFront (x : Slice) (p : Nat) (w : WayIdx) (y : Way) : Slice :=
  x.putSet p ⟨(x.getSet p).ways.set w y, w :: (x.getSet p).recency.erase w⟩

/-- A transaction record at its start, before its decision: every field cleared, the request's parts taken (R26). -/
def Record.started (o : Originator) (k : Kind) (l : LineAddr) (w : Option WriteData) (exclusive : Bool) : Record :=
  { Record.free with
    phase := .gather
    originator := o
    kind := k
    line := l
    write := w
    exclusive := exclusive }

/-- The command engine after it has taken a command write in IDLE (R201). -/
def Mgmt.taken (word : BitVec 32) (m : Mgmt) : Mgmt :=
  { m with offset := 0x10#8, running := true, command := word, status := .running, result := none }

/-- The management unit after a command has completed with an outcome and no result (R201, R207). -/
def Mgmt.completed (st : CommandStatus) (m : Mgmt) : Mgmt :=
  { m with running := false, status := st, alerts := m.alerts ||| (1#19 <<< 17) }

end Sys2Proof.Machine
end

