-- ==== Sys2Proof/Certificates/Slice0/Obligations.lean ====
section
/-!
DEFINITION. The statements for the provers. `s.resetPin = .released` says that the part runs. Where a statement speaks of an event at a
slice, `Slice.goOn` stands for what follows in the same event, and `Slice.still` says that nothing follows.
-/

open Sys2Proof Sys2Proof.Machine

/-! ## The machine as a whole -/

/-- A step runs the command at the front of the queue. -/
def Obligations.StepRunsTheFrontCommand : Prop :=
  ∀ (c : Instr) (s : State), step { s with pending := c :: s.pending } = exec c s

/-- Log 2, log 5: on an empty queue one millisecond passes, and the start-up clear runs on unless power-on reset is applied. -/
def Obligations.AnIdleStepPassesOneMillisecond : Prop :=
  ∀ s : State, s.pending = [] →
    step s = .next { s with
      now := s.now + 1
      mem := { s.mem with
        dram := if s.resetPin = .powerOn then s.mem.dram
          else s.mem.dram.clearOn (Config.clearProgress s.now) s.poolLines } }

/-- Log 18: a well-formed command always leads to a next state, and a term that is no command of its row is refused. -/
def Obligations.WellFormedCommandsRun : Prop :=
  ∀ (c : Instr) (s : State),
    (c.wf = true → ∃ t, exec c s = .next t) ∧ (c.wf = false → exec c s = .refused .illFormed)

/-- The address function and its inverse (R3, R4). -/
def Obligations.TheAddressFunctionIsInvertible : Prop :=
  (∀ l : LineAddr,
    setOf l = (l.toNat / 4) % 2048 ∧ (tagOf l).toNat = l.toNat / 8192
      ∧ (sliceOf l).val = (l.toNat % 4) ^^^ ((l.toNat / 2048) % 4)
      ∧ lineOf (sliceOf l) (setOf l) (tagOf l) = l)
  ∧ ∀ (sid : SliceId) (p : Nat) (t : BitVec 15), p < 2048 →
    sliceOf (lineOf sid p t) = sid ∧ setOf (lineOf sid p t) = p ∧ tagOf (lineOf sid p t) = t

/-- R211: the check is the CRC over the line bytes, and for a MaskedWrite over the mask bytes behind them; nothing else is
covered, and a message passes if and only if its check is equal to the register. -/
def Obligations.TheDataCheckIsTheCrc : Prop :=
  let bit (c : BitVec 16) (b : Bool) : BitVec 16 :=
    if c.getLsbD 15 ^^ b then (c <<< 1) ^^^ 0x1021#16 else c <<< 1
  let register (bytes : List Byte) : BitVec 16 :=
    (bytes.flatMap fun b => (List.range 8).map fun k => b.getLsbD (7 - k)).foldl bit 0xFFFF#16
  (∀ m : ReturnDirtyMsg, (ReqMsg.returnDirty m).checked = some (decide (m.check = register m.data.bytes.toList)))
  ∧ (∀ m : MaskedWriteMsg,
      (ReqMsg.maskedWrite m).checked = some (decide (m.check =
        register (m.write.data.bytes.toList ++ (List.range 8).map fun k => m.write.mask.extractLsb' (8 * k) 8))))
  ∧ ∀ (n : Agent) (m : DirtyMsg) (s : State),
      (m.check = register m.data.bytes.toList →
        s.takeDirty n m = (s.updLink n fun u => { u with consecutive := 0 }).updLink n
          (LinkUnit.forward m.handle (.reply m.handle m.line (.dirty m.data))))
      ∧ (m.check ≠ register m.data.bytes.toList →
        s.takeDirty n m
          = s.dataCheckFailed n ⟨.dataCheck, some (.reply, 0x03), some m.line, none⟩ (LinkUnit.queueReplyRetry m.handle))

/-- The register window after power-on reset, at State.reset, and after hard reset (12.4, R199, R209). At a hard reset the fault records
and the counters are kept, but that what waits in an agent's request channel is counted as discarded, which R132 asks and whose moment is
the model's choice (log 10): bits 31:16 of 0x80 + 8n rise by it, up to 65535. -/
def Obligations.TheRegisterWindowAfterReset : Prop :=
  (∀ off : BitVec 8, State.reset.readRegister off = if off = 0x04 then 0x141401FF else 0)
  ∧ (∀ (s : State) (off : BitVec 8), s.powerOnReset.readRegister off = if off = 0x04 then 0x141401FF else 0)
  ∧ (∀ (s : State) (n : Agent),
    s.hardReset.readRegister (BitVec.ofNat 8 (0x80 + 8 * n.val)) =
      BitVec.ofNat 16 (min (s.links[n].discarded.toNat + s.links[n].requestChannel.length) 65535) ++ s.links[n].dataCheckFailures)
  ∧ ∀ (s : State) (off : BitVec 8), (∀ n : Agent, off ≠ BitVec.ofNat 8 (0x80 + 8 * n.val)) →
    s.hardReset.readRegister off =
      if off = 0x04 then 0x141401FF
      else if off = 0x0C then s.readRegister 0x0C &&& 0x0004FF00
      else if off = 0x1C then (if s.mem.dram.clearRunning then 0 else 0x00010000)
      else if off.toNat < 0x40 then 0
      else s.readRegister off

/-! ## Link units: the request channel -/

/-- A tagged message that passes every test of R137 is routed: its tag becomes OUTSTANDING, a tag place is reserved, it goes to the
slice of its line, and nothing else changes. FetchShared, FetchOwned, Promote and Snapshot in ONLINE; MaskedWrite in ONLINE, its data check
passed and the consecutive-failure count 0 (R145); ReturnDirty and ReturnClean of a CACHING agent in ONLINE and in DRAINING. -/
def Obligations.MessagesAreRoutedToTheirSlice : Prop :=
  (∀ (n : Agent) (src : Take TagLine) (m : TagLine) (rest : List ReqMsg) (s : State),
      s.resetPin = .released → s.links[n].state = .online → s.links[n].reservations < 16 →
      s.links[n].tags[m.tag] = false → m.line.toNat < s.poolLines →
      let routed (k : Kind) : State :=
        s.updLink n (LinkUnit.accepted rest m.tag (sliceOf m.line) (.request k m.tag m.line none))
      (s.links[n].cls = .caching →
        (s.links[n].presents (src.map .fetchShared) (.fetchShared m) rest →
          exec (.fetchShared n src) s = .next (routed .fetchShared))
        ∧ (s.links[n].presents (src.map .fetchOwned) (.fetchOwned m) rest →
          exec (.fetchOwned n src) s = .next (routed .fetchOwned))
        ∧ (s.links[n].presents (src.map .promote) (.promote m) rest →
          exec (.promote n src) s = .next (routed .promote)))
      ∧ (s.links[n].presents (src.map .snapshot) (.snapshot m) rest →
          exec (.snapshot n src) s = .next (routed .snapshot)))
  ∧ (∀ (n : Agent) (src : Take MaskedWriteMsg) (m : MaskedWriteMsg) (rest : List ReqMsg) (s : State),
      s.resetPin = .released → s.links[n].state = .online → s.links[n].reservations < 16 →
      s.links[n].tags[m.tag] = false → m.line.toNat < s.poolLines → m.check = maskedCheck m.write →
      s.links[n].presents (src.map .maskedWrite) (.maskedWrite m) rest →
      exec (.maskedWrite n src) s = .next (s.updLink n fun u =>
        { u.accepted rest m.tag (sliceOf m.line) (.request .maskedWrite m.tag m.line (some m.write)) with consecutive := 0 }))
  ∧ ((∀ (n : Agent) (src : Take ReturnDirtyMsg) (m : ReturnDirtyMsg) (rest : List ReqMsg) (s : State),
      s.resetPin = .released → s.links[n].state ∈ [.online, .drainingSettling, .drainingSweeping] →
      s.links[n].cls = .caching → s.links[n].reservations < 16 →
      s.links[n].tags[m.tag] = false → m.line.toNat < s.poolLines → m.check = dataCheck m.data.bytes →
      s.links[n].presents (src.map .returnDirty) (.returnDirty m) rest →
      exec (.returnDirty n src) s = .next (s.updLink n fun u =>
        { u.accepted rest m.tag (sliceOf m.line) (.returned m.tag m.line (some m.data)) with consecutive := 0 }))
    ∧ ∀ (n : Agent) (src : Take TagLine) (m : TagLine) (rest : List ReqMsg) (s : State),
      s.resetPin = .released → s.links[n].state ∈ [.online, .drainingSettling, .drainingSweeping] →
      s.links[n].cls = .caching → s.links[n].reservations < 16 →
      s.links[n].tags[m.tag] = false → m.line.toNat < s.poolLines →
      s.links[n].presents (src.map .returnClean) (.returnClean m) rest →
      exec (.returnClean n src) s
        = .next (s.updLink n (LinkUnit.accepted rest m.tag (sliceOf m.line) (.returned m.tag m.line none))))

/-- An arriving message is taken if none waits before it and, where it is tagged, fewer than 16 tag places are reserved or the link is
one that reserves none; otherwise it waits at the back of the channel (R136). That a waiting message stands in the state is the model's
choice (log 10), and that a message that fails the form test, which is not tagged here, waits for no tag place is the model's reading
(log 20). -/
def Obligations.TheRequestChannelKeepsOrder : Prop :=
  ∀ (n : Agent) (m : ReqMsg) (s : State), s.resetPin = .released →
    (∀ x, m = .malformed x → x.channel = .request ∧ failsForm x = true) →
    let u := s.links[n]
    let blocked : Prop := m.tag ≠ none ∧ 16 ≤ u.reservations
      ∧ (u.state ∈ [.online, .drainingSettling, .drainingSweeping] ∨ (u.state = .offline ∧ u.heldHello ≠ none))
    (u.requestChannel = [] → ¬blocked → exec (m.command n) s = .next (s.takeMessage n m))
    ∧ (u.requestChannel ≠ [] ∨ blocked →
      exec (m.command n) s = .next (s.updLink n fun u => { u with requestChannel := u.requestChannel ++ [m] }))

/-- The first tests of R137 that a tagged message fails, for a message `m` taken in ONLINE or DRAINING: a failed data check is
answered DataRetry (R144); a kind its class may not send, or an OUTSTANDING tag, is a protocol fault; a request in DRAINING is
answered Refused(DEPARTING); out of range, a request is answered Refused(ADDRESS) and a return is a protocol fault (R2). -/
def Obligations.FailedTestsDecideAMessage : Prop :=
  ∀ (n : Agent) (m : ReqMsg) (tag : Tag) (line : LineAddr) (s : State),
    s.links[n].state ∈ [.online, .drainingSettling, .drainingSweeping] → m.tag = some tag → m.line = some line →
    let rest := s.links[n].requestChannel
    let fault : FaultRecord := ⟨.protocol, some (.request, m.code), some line, some tag⟩
    let took : State := s.updLink n fun u =>
      { u.reserved rest with consecutive := if m.checked = some true then 0 else u.consecutive }
    let refused (r : Response) : State := s.updLink n fun u =>
      { u.answered rest r with consecutive := if m.checked = some true then 0 else u.consecutive }
    (m.checked = some false → s.links[n].consecutive < 15 →
      s.takeMessage n m = s.updLink n fun u =>
        { u.answered rest (.dataRetry tag) with
          consecutive := u.consecutive + 1, dataCheckFailures := satInc u.dataCheckFailures })
    ∧ (m.checked = some false → s.links[n].consecutive = 15 →
      s.takeMessage n m = (s.updLink n fun u =>
        { u.reserved rest with consecutive := 16, dataCheckFailures := satInc u.dataCheckFailures }).takeCause n
          ⟨.dataCheck, some (.request, m.code), some line, some tag⟩)
    ∧ (m.checked ≠ some false → s.links[n].cls.allows m = false → s.takeMessage n m = took.takeCause n fault)
    ∧ (m.checked ≠ some false → s.links[n].cls.allows m = true → s.links[n].tags[tag] = true →
      s.takeMessage n m = took.takeCause n fault)
    ∧ (m.checked ≠ some false → s.links[n].cls.allows m = true → s.links[n].tags[tag] = false →
      (s.links[n].state ≠ .online → m.isReturn = false → s.takeMessage n m = refused (.refused tag .departing))
      ∧ (s.links[n].state = .online → m.isReturn = false → s.poolLines ≤ line.toNat →
        s.takeMessage n m = refused (.refused tag .address))
      ∧ (m.isReturn = true → s.poolLines ≤ line.toNat → s.takeMessage n m = took.takeCause n fault))

/-- A Hello in OFFLINE, with none held and no answer queued: an undefined class or a wrong revision is refused, then a disabled
agent; while the clear runs the Hello is held; otherwise Welcome goes out and the link becomes ONLINE (R133, R134, R210).
A Hello in ONLINE or DRAINING is a protocol fault without a response (R135); in OFFLINE with a Hello held, or with an answer
queued (Welcome or either HelloRefused), and in FENCED it is discarded and counted (R134, R142). That grants and probes which an earlier
session left queued stay so is the model's (log 30, log 32). -/
def Obligations.AHelloIsAnswered : Prop :=
  (∀ (n : Agent) (src : Take HelloMsg) (m : HelloMsg) (rest : List ReqMsg) (s : State),
      s.resetPin = .released → s.links[n].state = .offline → s.links[n].heldHello = none →
      (∀ x ∈ s.links[n].responses, (∀ p t, x ≠ .control (.welcome p t)) ∧ x ≠ .control .helloRefusedDisabled
        ∧ x ≠ .control .helloRefusedRevision) →
      s.links[n].presents (src.map .hello) (.hello m) rest →
      let answered (c : Control) : State := s.updLink n fun u =>
        { u with requestChannel := rest, responses := u.responses ++ [.control c] }
      let cls : AgentClass := if m.cls = 1#3 then .caching else .noncaching
      ((m.cls ≠ 1#3 ∧ m.cls ≠ 2#3) ∨ m.revision ≠ 1#4 →
        exec (.hello n src) s = .next (answered .helloRefusedRevision))
      ∧ (m.cls = 1#3 ∨ m.cls = 2#3 → m.revision = 1#4 →
        (s.mgmt.agentEnable.getLsbD n = false → exec (.hello n src) s = .next (answered .helloRefusedDisabled))
        ∧ (s.mgmt.agentEnable.getLsbD n = true → s.mem.dram.clearRunning = true →
          exec (.hello n src) s = .next (s.updLink n fun u => { u with requestChannel := rest, heldHello := some cls }))
        ∧ (s.mgmt.agentEnable.getLsbD n = true → s.mem.dram.clearRunning = false →
          exec (.hello n src) s = .next (s.updLink n fun u =>
            { u with
              requestChannel := rest
              state := .online
              cls := cls
              tags := Vector.replicate 16 false
              confirm := []
              consecutive := 0
              responses := u.responses ++ [.control (.welcome s.poolLines s.mgmt.responseTimeout)]
              reports := u.reports ++ [⟨.online, cls⟩] }))))
  ∧ (∀ (n : Agent) (m : HelloMsg) (s : State), s.resetPin = .released → s.links[n].requestChannel = [] →
      (s.links[n].state ∈ [.online, .drainingSettling, .drainingSweeping] →
        exec (.hello n (.arriving m)) s = .next (s.takeCause n ⟨.protocol, some (.request, 0x10), none, none⟩))
      ∧ (s.links[n].state ∈ [.fencedSweeping, .fencedSwept]
          ∨ (s.links[n].state = .offline ∧ (s.links[n].heldHello ≠ none
            ∨ (∃ p t, Outbound.control (.welcome p t) ∈ s.links[n].responses)
            ∨ Outbound.control .helloRefusedDisabled ∈ s.links[n].responses
            ∨ Outbound.control .helloRefusedRevision ∈ s.links[n].responses)) →
        exec (.hello n (.arriving m)) s = .next (s.updLink n fun u => { u with discarded := satInc u.discarded })))

/-- Depart in ONLINE starts the drain (R148, R149), in DRAINING it is discarded and counted (R142), and FlushDone of a CACHING agent
is forwarded to the quiesce controller in ONLINE and DRAINING (R137 step 4).
The start of a drain at the link unit: DRAINING(SETTLING) and drain notices; where every tag is FREE and the confirm set is empty,
DRAINING(SWEEPING) and drain sweep notices in the same event (R148, R149). -/
def Obligations.ADrainStarts : Prop :=
  (∀ (n : Agent) (src : Take Unit) (rest : List ReqMsg) (s : State), s.resetPin = .released →
      (s.links[n].presents (src.map fun _ => .depart) .depart rest →
        (s.links[n].state = .online →
          exec (.depart n src) s = .next (s.updLink n fun u => LinkUnit.startDrain { u with requestChannel := rest }))
        ∧ (s.links[n].state ∈ [.drainingSettling, .drainingSweeping] →
          exec (.depart n src) s = .next (s.updLink n fun u =>
            { u with requestChannel := rest, discarded := satInc u.discarded })))
      ∧ (s.links[n].presents (src.map fun _ => .flushDone) .flushDone rest →
        s.links[n].state ∈ [.online, .drainingSettling, .drainingSweeping] → s.links[n].cls = .caching →
          exec (.flushDone n src) s = .next (s.updLink n fun u =>
            { u with requestChannel := rest, flushDones := u.flushDones + 1 })))
  ∧ (∀ u : LinkUnit,
      ((∃ t : Tag, u.tags[t] = true) ∨ u.confirm ≠ [] →
        u.startDrain = { u with
          state := .drainingSettling
          reports := u.reports ++ [⟨.drainingSettling, u.cls⟩]
          notices := u.notices.map (· ++ [.drain]) })
      ∧ ((∀ t : Tag, u.tags[t] = false) → u.confirm = [] →
        u.startDrain = { u with
          state := .drainingSweeping
          slicesReported := 0#4
          reports := u.reports ++ [⟨.drainingSettling, u.cls⟩, ⟨.drainingSweeping, u.cls⟩]
          notices := u.notices.map (· ++ [.drain, .drainSweep]) }))

/-- The messages that are discarded and counted, without any other change: every message in FENCED; every message but a Hello in
OFFLINE with none held (R142).
While a Hello is held, a tagged message is answered Refused(NOT_ONLINE) with its tag and without a data check, and Depart, FlushDone,
every reply and every GrantAck are discarded and counted (R134), and so is a message that fails the form test (R210). -/
def Obligations.DiscardedAndRefusedMessages : Prop :=
  (∀ (n : Agent) (s : State), s.resetPin = .released →
      s.links[n].state ∈ [.fencedSweeping, .fencedSwept] ∨ (s.links[n].state = .offline ∧ s.links[n].heldHello = none) →
      let counted : State := s.updLink n fun u => { u with discarded := satInc u.discarded }
      (s.links[n].requestChannel = [] → ∀ m : ReqMsg, (∀ h, m ≠ .hello h) → (∀ x, m = .malformed x → x.channel = .request ∧ failsForm x = true) →
        exec (m.command n) s = .next counted)
      ∧ (∀ h l, exec (.gone n h l) s = .next counted ∧ exec (.clean n h l) s = .next counted)
      ∧ (∀ m, exec (.dirty n m) s = .next counted)
      ∧ (∀ h, exec (.grantAck n h) s = .next counted)
      ∧ ∀ x, failsForm x = true → x.channel = .reply → exec (.messageFailingFormTest n (.arriving x)) s = .next counted)
  ∧ (∀ (n : Agent) (m : ReqMsg) (s : State),
      s.links[n].state = .offline → s.links[n].heldHello ≠ none →
      (∀ tag, m.tag = some tag →
        s.takeMessage n m = s.updLink n (LinkUnit.answered s.links[n].requestChannel (.refused tag .notOnline)))
      ∧ (m = .depart ∨ m = .flushDone ∨ (∃ x, m = .malformed x) →
        s.takeMessage n m = s.updLink n fun u => { u with discarded := satInc u.discarded }))
  ∧ (∀ (n : Agent) (s : State), s.resetPin = .released → s.links[n].state = .offline → s.links[n].heldHello ≠ none →
      let counted : State := s.updLink n fun u => { u with discarded := satInc u.discarded }
      (∀ h l, exec (.gone n h l) s = .next counted ∧ exec (.clean n h l) s = .next counted)
      ∧ (∀ m, exec (.dirty n m) s = .next counted)
      ∧ (∀ h, exec (.grantAck n h) s = .next counted)
      ∧ ∀ x, failsForm x = true → x.channel = .reply → exec (.messageFailingFormTest n (.arriving x)) s = .next counted)

/-- A message that fails the form test is a protocol fault in ONLINE and DRAINING, with the code as received and the channel it came on
(R210). Log 12: whether an undefined code carries a tag or a line is a free value. -/
def Obligations.AMalformedMessageFencesTheAgent : Prop :=
  ∀ (n : Agent) (m : MalformedMsg) (s : State), s.resetPin = .released → failsForm m = true →
    s.links[n].state ∈ [.online, .drainingSettling, .drainingSweeping] →
    (m.channel = .request → s.links[n].requestChannel = []) →
    exec (.messageFailingFormTest n (.arriving m)) s = .next (s.takeCause n
      { cause := .protocol
        kind := some (m.channel, m.header.extractLsb' 0 6)
        line := if carriesLine m.channel (m.header.extractLsb' 0 6) then some (m.header.extractLsb' 24 28) else none
        tag := if carriesTag m.channel (m.header.extractLsb' 0 6) then some (m.header.extractLsb' 6 4).toFin else none })

/-! ## Link units: the reply channel, deliveries and link-down -/

/-- Replies in ONLINE and DRAINING are forwarded to the slice of their handle; a Dirty reply first passes its data check, or is answered
DataRetry with its handle, and the sixteenth failure in a row fences the agent with cause DATA_CHECK (R143 to R145). Log 29: where a
DataRetry for the handle is still pending, it stands for both.
A GrantAck in ONLINE and DRAINING leaves the confirm set and is forwarded; where it was the last thing a drain settled for, the link
enters DRAINING(SWEEPING) in the same event (R141, R143, R149). -/
def Obligations.RepliesAreForwardedByHandle : Prop :=
  (∀ (n : Agent) (s : State), s.resetPin = .released →
      s.links[n].state ∈ [.online, .drainingSettling, .drainingSweeping] →
      let sent (h : Handle) (x : SliceMsg) (u : LinkUnit) : LinkUnit :=
        { u with toSlice := u.toSlice.set (h.val / 32) (u.toSlice[h.val / 32] ++ [x]) }
      (∀ h line, exec (.gone n h line) s = .next (s.updLink n (sent h (.reply h line .gone)))
        ∧ exec (.clean n h line) s = .next (s.updLink n (sent h (.reply h line .clean))))
      ∧ ∀ m : DirtyMsg,
        (m.check = dataCheck m.data.bytes → exec (.dirty n m) s = .next (s.updLink n fun u =>
          sent m.handle (.reply m.handle m.line (.dirty m.data)) { u with consecutive := 0 }))
        ∧ (m.check ≠ dataCheck m.data.bytes → s.links[n].consecutive < 15 →
          exec (.dirty n m) s = .next (s.updLink n fun u =>
            { u with
              consecutive := u.consecutive + 1
              dataCheckFailures := satInc u.dataCheckFailures
              responses :=
                if .replyRetry m.handle ∈ u.responses then u.responses else u.responses ++ [.replyRetry m.handle] }))
        ∧ (m.check ≠ dataCheck m.data.bytes → s.links[n].consecutive = 15 →
          exec (.dirty n m) s = .next ((s.updLink n fun u =>
            { u with consecutive := 16, dataCheckFailures := satInc u.dataCheckFailures }).takeCause n
              ⟨.dataCheck, some (.reply, 0x03), some m.line, none⟩)))
  ∧ (∀ (n : Agent) (h : Handle) (s : State), s.resetPin = .released →
      s.links[n].state ∈ [.online, .drainingSettling, .drainingSweeping] →
      let sent (u : LinkUnit) : LinkUnit :=
        { u with
          confirm := u.confirm.erase h
          toSlice := u.toSlice.set (h.val / 32) (u.toSlice[h.val / 32] ++ [.grantAck h]) }
      let settles : Prop := s.links[n].state = .drainingSettling ∧ (∀ t : Tag, s.links[n].tags[t] = false)
        ∧ s.links[n].confirm.erase h = []
      (¬settles → exec (.grantAck n h) s = .next (s.updLink n sent))
      ∧ (settles → exec (.grantAck n h) s = .next (s.updLink n fun u =>
          { sent u with
            state := .drainingSweeping
            slicesReported := 0#4
            reports := u.reports ++ [⟨.drainingSweeping, u.cls⟩]
            notices := u.notices.map (· ++ [.drainSweep]) })))

/-- A fence cause taken at a link unit: in ONLINE and DRAINING the fence event with all its changes (R152, R156, R157); in FENCED the fault
is counted alone (R158); in OFFLINE nothing changes. That what waits in the request channel as the hold begins is discarded and counted
in the fence event itself is the model's choice (R132, log 10). -/
def Obligations.AFenceCauseIsTaken : Prop :=
  ∀ (n : Agent) (f : FaultRecord) (s : State),
    let counted (u : LinkUnit) : LinkUnit :=
      { u with
        faultCount := if u.faultCount = 255#8 then 255#8 else u.faultCount + 1
        faultRecord := if u.faultRecord = none then some f else u.faultRecord }
    let alerted (t : State) : State :=
      { t with mgmt := { t.mgmt with alerts := t.mgmt.alerts ||| (1#19 <<< (8 + n.val)) } }
    (s.links[n].state ∈ [.online, .drainingSettling, .drainingSweeping] →
      s.takeCause n f = alerted (s.updLink n fun u =>
        { counted u with
          state := .fencedSweeping
          requestChannel := []
          discarded := BitVec.ofNat 16 (min (u.discarded.toNat + u.requestChannel.length) 65535)
          tags := Vector.replicate 16 false
          confirm := []
          reservations := 0
          slicesReported := 0#4
          responses := []
          probes := []
          reports := u.reports ++ [⟨.fencedSweeping, u.cls⟩]
          notices := u.notices.map (· ++ [.fence]) }))
    ∧ (s.links[n].state ∈ [.fencedSweeping, .fencedSwept] → s.takeCause n f = alerted (s.updLink n counted))
    ∧ (s.links[n].state = .offline → s.takeCause n f = s)

/-- Each report and the link-down bring their cause with the details of R155: link-down (R132), a slice's TIMEOUT and PROTOCOL reports, and
the quiesce controller's FLUSH_TIMEOUT report. That this report may pass FlushRequests and discard notices that stand before it is the
model's reading (log 19). -/
def Obligations.ReportsBringTheirCause : Prop :=
  ∀ (n : Agent) (s : State), s.resetPin = .released →
    (s.links[n].state ∈ [.online, .drainingSettling, .drainingSweeping] →
      exec (.linkDown n) s = .next (s.takeCause n ⟨.linkLost, none, none, none⟩))
    ∧ (s.links[n].state = .offline → exec (.linkDown n) s = .next (s.updLink n fun u =>
        { u with
          heldHello := none
          responses := u.responses.filter fun m => match m with
            | .control _ => false
            | _ => true }))
    ∧ (s.links[n].state ∈ [.fencedSweeping, .fencedSwept] → exec (.linkDown n) s = .next s)
    ∧ (∀ (sid : SliceId) (line : LineAddr) (ms : List LinkMsg), s.slices[sid].toLink[n] = .timeout line :: ms →
      exec (.timeoutReport n sid) s = .next ((s.afterLinkMsg sid n ms).takeCause n ⟨.timeout, none, some line, none⟩))
    ∧ (∀ (sid : SliceId) (c : Channel) (code : BitVec 6) (line : Option LineAddr) (tag : Option Tag) (ms : List LinkMsg),
      s.slices[sid].toLink[n] = .fault c code line tag :: ms →
      exec (.faultReport n sid) s = .next ((s.afterLinkMsg sid n ms).takeCause n ⟨.protocol, some (c, code), line, tag⟩))
    ∧ ∀ pre post : List ControllerMsg, s.links[n].fromController = pre ++ .flushTimeout :: post → .flushTimeout ∉ pre →
      exec (.flushTimeoutReport n) s
        = .next ((s.updLink n fun u => { u with fromController := pre ++ post }).takeCause n ⟨.flushTimeout, none, none, none⟩)

/-- The oldest message of the response channel leaves; a final response releases its tag place (R136, R146). A grant leaves in ONLINE and
DRAINING only, and that it stays at the front otherwise is the model's reading (R146, log 30). In ONLINE and DRAINING the oldest
probe is delivered (R147), and in OFFLINE and FENCED none is; that one left by an earlier session stays queued is the model's choice
(log 32).
The link unit takes a final response: in ONLINE it goes to the agent, its tag becomes FREE, a Retry is counted, and a grant's handle joins
the confirm set (R140, R141, R146); in FENCED and OFFLINE it is discarded, and a Retry is
counted all the same (R42, R153). A probe is queued in ONLINE and DRAINING and
discarded otherwise (R147); that it is queued behind however many is the model's choice (log 35). -/
def Obligations.DeliveriesAndResponses : Prop :=
  (∀ (n : Agent) (s : State), s.resetPin = .released →
      (∀ r ms, s.links[n].responses = .final r :: ms →
        let grant : Prop := ∃ h : Handle, (∃ t d, r = .grantShared t h d) ∨ (∃ t d, r = .grantOwned t h d) ∨ ∃ t, r = .grantPromote t h
        (s.links[n].state ∈ [.online, .drainingSettling, .drainingSweeping] ∨ ¬grant →
          exec (.responseDeparts n) s
            = .next (s.updLink n fun u => { u with responses := ms, reservations := u.reservations - 1 }))
        ∧ (s.links[n].state ∈ [.offline, .fencedSweeping, .fencedSwept] → grant → exec (.responseDeparts n) s = .next s))
      ∧ (∀ c ms, s.links[n].responses = .control c :: ms →
        exec (.responseDeparts n) s = .next (s.updLink n fun u => { u with responses := ms }))
      ∧ (∀ h ms, s.links[n].responses = .replyRetry h :: ms →
        exec (.responseDeparts n) s = .next (s.updLink n fun u => { u with responses := ms }))
      ∧ (∀ p ps, s.links[n].probes = p :: ps → s.links[n].state ∈ [.online, .drainingSettling, .drainingSweeping] →
        exec (.probeDelivered n) s = .next (s.updLink n fun u => { u with probes := ps }))
      ∧ (s.links[n].state ∈ [.offline, .fencedSweeping, .fencedSwept] → exec (.probeDelivered n) s = .next s))
  ∧ (∀ (n : Agent) (sid : SliceId) (s : State), s.resetPin = .released →
      (∀ r ms, s.slices[sid].toLink[n] = .response r :: ms →
        (s.links[n].state = .online →
          exec (.finalResponseTaken n sid) s = .next ((s.afterLinkMsg sid n ms).updLink n fun u =>
            { u with
              responses := u.responses ++ [.final r]
              tags := u.tags.set r.tag false
              retries := match r with
                | .retry _ _ => satInc u.retries
                | _ => u.retries
              confirm := match r with
                | .grantShared _ h _ => if h ∈ u.confirm then u.confirm else u.confirm ++ [h]
                | .grantOwned _ h _ => if h ∈ u.confirm then u.confirm else u.confirm ++ [h]
                | .grantPromote _ h => if h ∈ u.confirm then u.confirm else u.confirm ++ [h]
                | _ => u.confirm }))
        ∧ (s.links[n].state ∈ [.offline, .fencedSweeping, .fencedSwept] →
          exec (.finalResponseTaken n sid) s = .next ((s.afterLinkMsg sid n ms).updLink n fun u =>
            { u with
              retries := match r with
                | .retry _ _ => satInc u.retries
                | _ => u.retries })))
      ∧ ∀ p ms, s.slices[sid].toLink[n] = .probe p :: ms →
        (s.links[n].state ∈ [.online, .drainingSettling, .drainingSweeping] →
          exec (.probeTaken n sid) s
            = .next ((s.afterLinkMsg sid n ms).updLink n fun u => { u with probes := u.probes ++ [p] }))
        ∧ (s.links[n].state ∈ [.offline, .fencedSweeping, .fencedSwept] →
          exec (.probeTaken n sid) s = .next (s.afterLinkMsg sid n ms)))

/-- The last steps of a drain at the link unit: the final response that frees the last tag in DRAINING(SETTLING), with the confirm set
empty, makes it DRAINING(SWEEPING) (R149); a slice's drain completion report joins the slices reported, and with all four and
every tag FREE (at the report, or at the last ReturnDone) Farewell is queued and the link is OFFLINE with class none (R150); outside DRAINING(SWEEPING) it is ignored (R151).
That Farewell is queued also behind a Farewell that is still queued is the model's choice (log 26), and so is that grants and probes that
are still queued as the drain ends stay so (log 30, log 32).
A fence completion report in FENCED(SWEEPING) joins the slices reported, and the fourth makes the link FENCED(SWEPT), reported to the
management unit (R152, R167). -/
def Obligations.DrainAndFenceReportsAreTaken : Prop :=
  (∀ (n : Agent) (sid : SliceId) (ms : List LinkMsg) (s : State), s.resetPin = .released →
      (∀ r, s.slices[sid].toLink[n] = .response r :: ms → s.links[n].state = .drainingSettling → s.links[n].confirm = [] →
        r.grantHandle = none → (∀ t : Tag, t ≠ r.tag → s.links[n].tags[t] = false) →
        exec (.finalResponseTaken n sid) s = .next ((s.afterLinkMsg sid n ms).updLink n fun u =>
          { u with
            responses := u.responses ++ [.final r]
            tags := u.tags.set r.tag false
            retries := if r.isRetry then satInc u.retries else u.retries
            state := .drainingSweeping
            slicesReported := 0#4
            reports := u.reports ++ [⟨.drainingSweeping, u.cls⟩]
            notices := u.notices.map (· ++ [.drainSweep]) }))
      ∧ (∀ t, s.slices[sid].toLink[n] = .response (.returnDone t) :: ms → s.links[n].state = .drainingSweeping →
        s.links[n].slicesReported = 15#4 → (∀ t' : Tag, t' ≠ t → s.links[n].tags[t'] = false) →
        exec (.finalResponseTaken n sid) s = .next ((s.afterLinkMsg sid n ms).updLink n fun u =>
          { u with
            responses := u.responses ++ [.final (.returnDone t), .control .farewell]
            tags := u.tags.set t false
            state := .offline
            cls := .unset
            heldHello := none
            confirm := []
            slicesReported := 0#4
            reports := u.reports ++ [⟨.offline, .unset⟩] }))
      ∧ (s.slices[sid].toLink[n] = .drainDone :: ms →
        let reported := s.links[n].slicesReported ||| (1#4 <<< sid.val)
        (s.links[n].state = .drainingSweeping → reported = 15#4 → (∀ t : Tag, s.links[n].tags[t] = false) →
          exec (.drainCompletionReport n sid) s = .next ((s.afterLinkMsg sid n ms).updLink n fun u =>
            { u with
              state := .offline
              cls := .unset
              heldHello := none
              confirm := []
              slicesReported := 0#4
              responses := u.responses ++ [.control .farewell]
              reports := u.reports ++ [⟨.offline, .unset⟩] }))
        ∧ (s.links[n].state = .drainingSweeping → (reported ≠ 15#4 ∨ ∃ t : Tag, s.links[n].tags[t] = true) →
          exec (.drainCompletionReport n sid) s
            = .next ((s.afterLinkMsg sid n ms).updLink n fun u => { u with slicesReported := reported }))
        ∧ (s.links[n].state ≠ .drainingSweeping →
          exec (.drainCompletionReport n sid) s = .next (s.afterLinkMsg sid n ms))))
  ∧ (∀ (n : Agent) (sid : SliceId) (ms : List LinkMsg) (s : State), s.resetPin = .released →
      s.slices[sid].toLink[n] = .fenceDone :: ms → s.links[n].state = .fencedSweeping →
      let reported := s.links[n].slicesReported ||| (1#4 <<< sid.val)
      (reported ≠ 15#4 → exec (.fenceCompletionReport n sid) s
        = .next ((s.afterLinkMsg sid n ms).updLink n fun u => { u with slicesReported := reported }))
      ∧ (reported = 15#4 → exec (.fenceCompletionReport n sid) s
        = .next ((s.afterLinkMsg sid n ms).updLink n fun u =>
          { u with
            slicesReported := reported
            state := .fencedSwept
            reports := u.reports ++ [⟨.fencedSwept, u.cls⟩] })))

/-- What a link unit takes from the quiesce controller: a FlushRequest is queued in ONLINE and DRAINING, merged with one still queued, and
discarded otherwise (R146, R187); that it may pass other kinds of controller message that stand before it is the model's reading (log 19).
And from the memory channel: the report of the clear answers a held Hello, agent enable
being tested again (R134). -/
def Obligations.ControllerAndClearReports : Prop :=
  ∀ (n : Agent) (s : State), s.resetPin = .released →
    (∀ pre post : List ControllerMsg, s.links[n].fromController = pre ++ .flushRequest :: post → .flushRequest ∉ pre →
      let left (u : LinkUnit) : LinkUnit := { u with fromController := pre ++ post }
      (s.links[n].state ∈ [.online, .drainingSettling, .drainingSweeping] →
        Outbound.control .flushRequest ∉ s.links[n].responses →
        exec (.flushRequest n) s
          = .next (s.updLink n fun u => { left u with responses := u.responses ++ [.control .flushRequest] }))
      ∧ (s.links[n].state ∈ [.offline, .fencedSweeping, .fencedSwept]
          ∨ Outbound.control .flushRequest ∈ s.links[n].responses →
        exec (.flushRequest n) s = .next (s.updLink n left)))
    ∧ (s.links[n].clearReport = true →
      (s.links[n].heldHello = none →
        exec (.memoryClearReport n) s = .next (s.updLink n fun u => { u with clearReport := false }))
      ∧ ∀ c, s.links[n].heldHello = some c →
        (s.mgmt.agentEnable.getLsbD n = false →
          exec (.memoryClearReport n) s = .next (s.updLink n fun u =>
            { u with
              clearReport := false
              heldHello := none
              responses := u.responses ++ [.control .helloRefusedDisabled] }))
        ∧ (s.mgmt.agentEnable.getLsbD n = true →
          exec (.memoryClearReport n) s = .next (s.updLink n fun u =>
            { u with
              clearReport := false
              heldHello := none
              state := .online
              cls := c
              tags := Vector.replicate 16 false
              confirm := []
              consecutive := 0
              responses := u.responses ++ [.control (.welcome s.poolLines s.mgmt.responseTimeout)]
              reports := u.reports ++ [⟨.online, c⟩] })))

/-! ## Coherence slices: the directory -/

/-- Where nothing follows, an event at a slice is over. -/
def Obligations.NothingFollowsAtAStillSlice : Prop :=
  ∀ (env : Env) (wake : Bool) (x : Slice), x.still env → x.goOn env wake = x

/-- Removing an agent from an entry (R15, R18, R19): a sharer among several leaves the entry in its way and in its place; the last sharer, and the
owner, free the entry, whose way leaves the recency order and becomes EMPTY, or RESERVED for the record that holds the line: as its
victim line, or as its request line if it is a caching record in GATHER whose originator is not fenced.
A FENCE job's action at an unheld line's entry: the sharer is removed, and an owner's line gets a poison write before its entry is freed;
entries that do not name the agent are not touched (R165). -/
def Obligations.EntriesLoseTheirAgents : Prop :=
  (∀ (sid : SliceId) (l : LineAddr) (n : Agent) (w : WayIdx) (x : Slice),
      let freed (y : Way) : Prop :=
        x.freeEntry sid l = x.withWayOut (setOf l) w y
      (∀ a, x.entryOf l = some (w, .shared a) →
        (a.getLsbD n = true → a ≠ 1#8 <<< n.val →
          x.removeAgent sid l n = x.withWay (setOf l) w (.occupied (tagOf l) (.shared (a &&& ~~~(1#8 <<< n.val)))))
        ∧ (a = 1#8 <<< n.val → x.removeAgent sid l n = x.freeEntry sid l)
        ∧ (a.getLsbD n = false → x.removeAgent sid l n = x))
      ∧ (∀ b, x.entryOf l = some (w, .owned b) →
        (b = n → x.removeAgent sid l n = x.freeEntry sid l) ∧ (b ≠ n → x.removeAgent sid l n = x))
      ∧ (x.entryOf l = none → x.removeAgent sid l n = x ∧ x.freeEntry sid l = x)
      ∧ ∀ e, x.entryOf l = some (w, e) →
        (x.holder l = none → freed .empty)
        ∧ ∀ i, x.holder l = some i →
          (x.records[i].victim = some l →
            freed (.reserved (tagOf x.records[i].line) (handleOf sid i)))
          ∧ (x.records[i].victim ≠ some l → x.records[i].kind ∈ [.fetchShared, .fetchOwned, .promote] →
            x.records[i].phase = .gather → x.records[i].originFenced = false →
            freed (.reserved (tagOf l) (handleOf sid i)))
          ∧ (x.records[i].victim ≠ some l →
            x.records[i].kind ∉ [.fetchShared, .fetchOwned, .promote] ∨ x.records[i].phase ≠ .gather
              ∨ x.records[i].originFenced = true →
            freed .empty))
  ∧ (∀ (sid : SliceId) (l : LineAddr) (n : Agent) (w : WayIdx) (x : Slice), (∀ i : RecIdx, ¬x.records[i].holds l) →
      (∀ a, x.entryOf l = some (w, .shared a) →
        (a.getLsbD n = true → a ≠ 1#8 <<< n.val →
          x.fenceAction sid l n = x.withWay (setOf l) w (.occupied (tagOf l) (.shared (a &&& ~~~(1#8 <<< n.val)))))
        ∧ (a = 1#8 <<< n.val → x.fenceAction sid l n = x.withWayOut (setOf l) w .empty)
        ∧ (a.getLsbD n = false → x.fenceAction sid l n = x))
      ∧ (∀ b, x.entryOf l = some (w, .owned b) →
        (b = n → x.fenceAction sid l n = (x.orders (.poisonWrite l) .engine).withWayOut (setOf l) w .empty)
        ∧ (b ≠ n → x.fenceAction sid l n = x))
      ∧ (x.entryOf l = none → x.fenceAction sid l n = x))

/-- Inspect reads the set as it stands: present, state, agents, way, recency position, reserved and held (R10, R204); the lookup changes
nothing but the path to the command engine. -/
def Obligations.AnInspectReadsTheDirectory : Prop :=
  ∀ (sid : SliceId) (l : LineAddr) (ms : List CommandMsg) (s : State), s.resetPin = .released →
    s.mgmt.cmdPath[sid] = .inspect l :: ms → s.slices[sid].still (s.env sid) →
    let x := s.slices[sid]
    let place (w : WayIdx) : Nat := (x.getSet (setOf l)).recency.idxOf w
    let answers (r : InspectResult) : Prop :=
      exec (.inspectLookup sid) s
        = .next ((s.afterCommand sid ms).updSlice sid fun x => { x with toEngine := x.toEngine ++ [⟨.done, some r⟩] })
    (∀ w a, x.entryOf l = some (w, .shared a) → answers ⟨true, false, a, 0, false, w, place w, x.held l⟩)
    ∧ (∀ w b, x.entryOf l = some (w, .owned b) → answers ⟨true, true, 0, b, false, w, place w, x.held l⟩)
    ∧ (∀ w h, x.entryOf l = none → x.reservationOf l = some (w, h) →
      answers ⟨false, false, 0, 0, true, w, 0, x.held l⟩)
    ∧ (x.entryOf l = none → x.reservationOf l = none → answers ⟨false, false, 0, 0, false, 0, 0, x.held l⟩)

/-! ## Coherence slices: requests -/

/-- The rows of the arrival decision that do not start the request: a fenced agent's is discarded, a draining agent's is refused, in a quiesce
it is retried; else where the line is held, named by a waiter, or no record is FREE, it waits if a place is free, and is answered
Retry(BUSY) if not (R32). -/
def Obligations.RequestsThatDoNotStartAtArrival : Prop :=
  ∀ (sid : SliceId) (n : Agent) (k : Kind) (tag : Tag) (line : LineAddr) (w : Option WriteData) (ms : List SliceMsg) (s : State),
    s.resetPin = .released → s.links[n].toSlice[sid] = .request k tag line w :: ms → s.slices[sid].still (s.env sid) →
    let x := s.slices[sid]
    let t := s.afterSliceMsg sid n ms
    let answers (r : Response) : Prop :=
      exec (.requestArrival sid n) s = .next (t.updSlice sid fun x => x.sends n (.response r))
    (x.fenced.getLsbD n = true → exec (.requestArrival sid n) s = .next t)
    ∧ (x.fenced.getLsbD n = false →
      (x.draining.getLsbD n = true → answers (.refused tag .departing))
      ∧ (x.draining.getLsbD n = false →
        (s.mgmt.quiesce.state ≠ .normal → answers (.retry tag .quiesced))
        ∧ (s.mgmt.quiesce.state = .normal →
          (∃ i : RecIdx, x.records[i].holds line) ∨ (∃ v ∈ x.waitQueue, v.line = line)
            ∨ (∀ i : RecIdx, x.records[i].phase ≠ .free) →
          (x.waitQueue.length < 48 →
            exec (.requestArrival sid n) s = .next (t.updSlice sid fun x =>
              { x with waitQueue := x.waitQueue ++ [⟨.agent n tag, k, line, w⟩] }))
          ∧ (48 ≤ x.waitQueue.length → answers (.retry tag .busy)))))

/-- A request for a line that no agent owns starts at its arrival in a FREE record.
Where it has no agent to wait for, it reads memory at once: a Snapshot of an ABSENT or SHARED line (R94, R95); a FetchShared of a SHARED
line; a FetchShared, FetchOwned or Promote of an ABSENT line whose set has an EMPTY way, the lowest of which becomes RESERVED (R46, R51,
R55, R110). A grant plan by the sole-reader rule reads the option in force (R45). A MaskedWrite of an ABSENT line orders its merge write,
and a poison write behind it where its data carry Poison (R101, R102).
A FetchOwned of a SHARED line, and a Promote whose requester is no sharer of it, revoke every sharer but the requester beside the read
(R51, R52, R55). A Promote of a sharer revokes every other sharer and reads nothing; where there is no other, GrantPromote is sent and the
entry becomes OWNED in the same event (R54, R60, R61). A MaskedWrite of a SHARED line revokes every sharer (R101, R103).
A fenced agent that is the line's only sharer gets no Revoke: its wait is taken and settled as Gone, and the entry is freed at once (R164).
Log 4: which FREE record it is stays open. -/
def Obligations.ARequestThatReadsMemoryStarts : Prop :=
  ∀ (sid : SliceId) (n : Agent) (k : Kind) (tag : Tag) (line : LineAddr) (wd : Option WriteData) (ms : List SliceMsg) (s : State),
    s.resetPin = .released → s.links[n].toSlice[sid] = .request k tag line wd :: ms → s.slices[sid].still (s.env sid) →
    s.mgmt.quiesce.state = .normal →
    let x := s.slices[sid]
    x.fenced.getLsbD n = false → x.draining.getLsbD n = false →
    (∀ i : RecIdx, ¬x.records[i].holds line) → (∀ v ∈ x.waitQueue, v.line ≠ line) →
    (∃ i : RecIdx, x.records[i].phase = .free) →
    let env := s.env sid
    let sole : Plan := if s.mgmt.exclusive then .grantOwned else .grantShared (1#8 <<< n.val)
    let begun : Record := Record.started (.agent n tag) k line wd (k = .fetchShared && s.mgmt.exclusive)
    let read (i : RecIdx) : List Ordered := [⟨.read line (handleOf sid i), .record i⟩]
    let merge (w : WriteData) (i : RecIdx) : List Ordered :=
      ⟨.mergeWrite line w.data.bytes w.mask, .record i⟩ :: (if w.data.poison then [⟨.poisonWrite line, .record i⟩] else [])
    let starts (r : Record) (ops : RecIdx → List Ordered) (place : RecIdx → Slice → Slice) : Prop :=
      ∃ (i : RecIdx) (picks : Nat), x.records[i].phase = .free ∧
        exec (.requestArrival sid n) s = .next ((s.afterSliceMsg sid n ms).updSlice sid fun x =>
          place i { x with
            picks := picks
            records := x.records.set i r
            submission := x.submission ++ ops i })
    let revokes (a : AgentSet) (i : RecIdx) (x : Slice) : Slice := x.probes a ⟨.revoke, handleOf sid i, line⟩
    let awaiting (a : AgentSet) (r : Record) : Record :=
      { r with waits := waitsOnAgents a .sharer .revoke, deadline := env.deadlineFor a }
    (k = .snapshot → (∀ w b, x.entryOf line ≠ some (w, .owned b)) →
      starts { begun with memRead := true, plan := .snapshotData } read fun _ x => x)
    ∧ (∀ w a, k = .fetchShared → x.entryOf line = some (w, .shared a) →
      starts { begun with
          memRead := true
          plan := if a = 1#8 <<< n.val then sole else .grantShared (a ||| (1#8 <<< n.val)) } read fun _ x => x)
    ∧ (∀ w, x.entryOf line = none → (x.getSet (setOf line)).findEmpty = some w →
      let reserve (i : RecIdx) (x : Slice) : Slice := x.withWay (setOf line) w (.reserved (tagOf line) (handleOf sid i))
      (k = .fetchShared → starts { begun with memRead := true, plan := sole } read reserve)
      ∧ (k = .fetchOwned ∨ k = .promote → starts { begun with memRead := true, plan := .grantOwned } read reserve))
    ∧ (∀ v, k = .maskedWrite → wd = some v → v.mask ≠ 0#64 → x.entryOf line = none →
      starts { begun with plan := .writeDone, ordered := true } (merge v) fun _ x => x)
    ∧ (∀ w a, x.entryOf line = some (w, .shared a) → (∀ m : Agent, a.getLsbD m = true → m ≠ n → x.fenced.getLsbD m = false) →
      let others : AgentSet := a &&& ~~~(1#8 <<< n.val)
      (k = .fetchOwned ∨ (k = .promote ∧ a.getLsbD n = false) →
        starts (awaiting others { begun with memRead := true, plan := .grantOwned }) read (revokes others))
      ∧ (k = .promote → a.getLsbD n = true → others ≠ 0#8 →
        starts (awaiting others { begun with plan := .grantPromote }) (fun _ => []) (revokes others))
      ∧ (k = .promote → a = 1#8 <<< n.val →
        starts { begun with phase := .confirm, plan := .grantPromote, deadline := .running (env.now + env.timeout) } (fun _ => [])
          fun i x => (x.sends n (.response (.grantPromote tag (handleOf sid i)))).withWayFront (setOf line) w
            (.occupied (tagOf line) (.owned n)))
      ∧ ∀ v, k = .maskedWrite → wd = some v → v.mask ≠ 0#64 → a ≠ 0#8 →
        starts (awaiting a { begun with plan := .writeDone }) (fun _ => []) (revokes a))
    ∧ ∀ (w : WayIdx) (b : Agent), x.entryOf line = some (w, .shared (1#8 <<< b.val)) → b ≠ n → x.fenced.getLsbD b = true →
      let gone : List Wait := [⟨b, .sharer, .revoke, .settled .gone⟩]
      (k = .fetchOwned ∨ k = .promote →
        starts { begun with waits := gone, memRead := true, plan := .grantOwned } read
          fun i x => x.withWayOut (setOf line) w (.reserved (tagOf line) (handleOf sid i)))
      ∧ ∀ v, k = .maskedWrite → wd = some v → v.mask ≠ 0#64 → x.directoryConsistent sid →
        starts { begun with waits := gone, plan := .writeDone, ordered := true } (merge v)
          fun _ x => x.withWayOut (setOf line) w .empty

/-- A request that finds its line OWNED by another agent starts and probes the owner: FetchShared sends Demote, FetchOwned, Promote
and MaskedWrite Revoke, Snapshot Peek; its deadline starts with the response timeout in force (R40, R46, R51, R55, R68, R94, R101).
A fenced owner gets no probe and is a lost owner at once (R164): a request that reads memory orders a poison write and then its read, a
FetchShared planning by the sole-reader rule; a MaskedWrite orders the writes of R162 for its mask and frees the entry (R162).
Log 4: which FREE record it is stays open. -/
def Obligations.ARequestForAnOwnedLineProbesTheOwner : Prop :=
  ∀ (sid : SliceId) (n b : Agent) (way : WayIdx) (k : Kind) (tag : Tag) (line : LineAddr) (wd : Option WriteData)
    (ms : List SliceMsg) (s : State),
    s.resetPin = .released → s.links[n].toSlice[sid] = .request k tag line wd :: ms → s.slices[sid].still (s.env sid) →
    s.mgmt.quiesce.state = .normal →
    let x := s.slices[sid]
    x.fenced.getLsbD n = false → x.draining.getLsbD n = false →
    (∀ i : RecIdx, ¬x.records[i].holds line) → (∀ v ∈ x.waitQueue, v.line ≠ line) →
    (∃ i : RecIdx, x.records[i].phase = .free) →
    x.entryOf line = some (way, .owned b) → b ≠ n →
    let begun : Record := Record.started (.agent n tag) k line wd (k = .fetchShared && s.mgmt.exclusive)
    let starts (f : RecIdx → Slice → Slice) : Prop :=
      ∃ (i : RecIdx) (picks : Nat), x.records[i].phase = .free ∧
        exec (.requestArrival sid n) s
          = .next ((s.afterSliceMsg sid n ms).updSlice sid fun x => { f i x with picks := picks })
    let probes (probe : ProbeKind) (plan : Plan) : Prop := starts fun i x =>
      { x.sends b (.probe ⟨probe, handleOf sid i, line⟩) with
        records := x.records.set i
          { begun with
            waits := [⟨b, .owner, probe, .awaitingReply⟩]
            plan := plan
            deadline := .running (s.now + s.mgmt.responseTimeout.toNat) } }
    let loses (probe : ProbeKind) (plan : Plan) : Prop := starts fun i x =>
      { x with
        records := x.records.set i
          { begun with waits := [⟨b, .owner, probe, .settled .lost⟩], plan := plan, memRead := true }
        submission := x.submission ++ [⟨.poisonWrite line, .record i⟩, ⟨.read line (handleOf sid i), .record i⟩] }
    (x.fenced.getLsbD b = false →
      (k = .fetchShared → probes .demote (.grantShared ((1#8 <<< n.val) ||| (1#8 <<< b.val))))
      ∧ (k = .fetchOwned ∨ k = .promote → probes .revoke .grantOwned)
      ∧ (k = .snapshot → probes .peek .snapshotData)
      ∧ ∀ v, k = .maskedWrite → wd = some v → v.mask ≠ 0#64 → probes .revoke .writeDone)
    ∧ (x.fenced.getLsbD b = true →
      (k = .fetchShared → loses .demote (if s.mgmt.exclusive then .grantOwned else .grantShared (1#8 <<< n.val)))
      ∧ (k = .fetchOwned ∨ k = .promote → loses .revoke .grantOwned)
      ∧ (k = .snapshot → loses .peek .snapshotData)
      ∧ ∀ v, k = .maskedWrite → wd = some v → v.mask ≠ 0#64 → starts fun i x =>
        { x.withWayOut (setOf line) way .empty with
          records := x.records.set i
            { begun with waits := [⟨b, .owner, .revoke, .settled .lost⟩], plan := .writeDone, ordered := true }
          submission := x.submission ++
            (if v.mask = BitVec.allOnes 64 then [⟨.fullWrite line v.data, .record i⟩]
            else ⟨.poisonWrite line, .record i⟩ :: ⟨.mergeWrite line v.data.bytes v.mask, .record i⟩ ::
              (if v.data.poison then [⟨.poisonWrite line, .record i⟩] else [])) })

/-- A request of the line's own recorded owner is answered Retry(SELF_OWNED), and a MaskedWrite with an empty mask WriteDone, in the event of its
start; the record ends in it, and nothing is probed, ordered or edited (R39, R100). -/
def Obligations.AStartThatAnswersAtOnce : Prop :=
  ∀ (sid : SliceId) (n : Agent) (k : Kind) (tag : Tag) (line : LineAddr) (wd : Option WriteData) (ms : List SliceMsg) (s : State),
    s.resetPin = .released → s.links[n].toSlice[sid] = .request k tag line wd :: ms → s.slices[sid].still (s.env sid) →
    s.mgmt.quiesce.state = .normal →
    let x := s.slices[sid]
    x.fenced.getLsbD n = false → x.draining.getLsbD n = false →
    (∀ i : RecIdx, ¬x.records[i].holds line) → (∀ v ∈ x.waitQueue, v.line ≠ line) → x.reservationOf line = none →
    (∃ i : RecIdx, x.records[i].phase = .free) → (∀ i : RecIdx, x.records[i].phase = .free → x.records[i] = Record.free) →
    x.freeRecordsIdle →
    let answers (r : Response) : Prop :=
      ∃ picks : Nat, exec (.requestArrival sid n) s = .next ((s.afterSliceMsg sid n ms).updSlice sid fun x =>
        { x.sends n (.response r) with picks := picks })
    (∀ w, x.entryOf line = some (w, .owned n) → k ∈ [.fetchShared, .fetchOwned, .promote, .snapshot] →
      answers (.retry tag .selfOwned))
    ∧ (∀ w v, x.entryOf line = some (w, .owned n) → k = .maskedWrite → wd = some v → v.mask ≠ 0#64 →
      answers (.retry tag .selfOwned))
    ∧ ∀ v, k = .maskedWrite → wd = some v → v.mask = 0#64 → answers (.writeDone tag)

/-- The start of a caching request for an ABSENT line in a set without an EMPTY way: the victim is the least recently granted way whose line is
not held; every agent that its entry names, none of them fenced, is sent Revoke; the read is ordered beside it (R111, R112). Where no way
can be had the answer is Retry(BUSY) (R39).
The eviction completes where every victim wait is settled: the victim's entry is freed, its way RESERVED for the request line, and the
victim line is released (R114). The arbiter then starts the oldest waiter whose line is not held in a FREE record, and without either it
does nothing (R38); log 4: which FREE record it is stays open.
At a Clean reply of the victim's only agent, with no waiter and no work for the engine, all of this is one event. -/
def Obligations.AFullSetGivesUpAVictim : Prop :=
  (∀ (env : Env) (i : RecIdx) (plan : Plan) (x : Slice),
      let r := x.records[i]
      let p := setOf r.line
      r.phase = .gather → r.finished = false → r.waits = [] → r.victim = none → r.victimWaits = [] → r.deadline = .stopped →
      (∀ w : WayIdx, (x.getSet p).ways[w] ≠ .empty) →
      (∀ (front back : List WayIdx) (w : WayIdx) (tag : BitVec 15) (e : Entry) (a : AgentSet),
        (x.getSet p).recency = front ++ w :: back → (x.getSet p).ways[w] = .occupied tag e →
        x.held (lineOf env.sid p tag) = false →
        (∀ v ∈ back, ∀ tag' e', (x.getSet p).ways[v] = .occupied tag' e' → x.held (lineOf env.sid p tag') = true) →
        e = .shared a ∨ (∃ b : Agent, e = .owned b ∧ a = 1#8 <<< b.val) → (∀ m : Agent, a.getLsbD m = true → x.fenced.getLsbD m = false) →
        x.needWay env i plan =
          { x.probes a ⟨.revoke, handleOf env.sid i, lineOf env.sid p tag⟩ with
            submission := x.submission ++ [⟨.read r.line (handleOf env.sid i), .record i⟩]
            records := x.records.set i
              { r with
                plan := plan
                victim := some (lineOf env.sid p tag)
                victimWaits := waitsOnAgents a e.role .revoke
                memRead := true
                deadline := env.deadlineFor a } })
      ∧ ∀ n t, r.originator = .agent n t →
        (∀ v ∈ (x.getSet p).recency, ∀ tag' e', (x.getSet p).ways[v] = .occupied tag' e' → x.held (lineOf env.sid p tag') = true) →
        x.needWay env i plan =
          { x.sends n (.response (.retry t .busy)) with records := x.records.set i { r with finished := true } })
  ∧ (∀ (env : Env) (i : RecIdx) (v : LineAddr) (x : Slice),
      let r := x.records[i]
      r.phase ≠ .free → r.victim = some v →
      ((∃ q ∈ r.victimWaits, q.live = true) → r.evictionDone = false)
      ∧ ((∀ q ∈ r.victimWaits, q.live = false) →
        r.evictionDone = true
        ∧ (∀ w e, x.entryOf v = some (w, e) → x.holder v = some i →
          x.completeEviction env i
            = (x.withWayOut (setOf v) w (.reserved (tagOf r.line) (handleOf env.sid i))).updRec env i
              fun r => { r with victim := none, victimWaits := [] })
        ∧ (x.entryOf v = none →
          x.completeEviction env i = x.updRec env i fun r => { r with victim := none, victimWaits := [] })))
  ∧ (∀ (env : Env) (x : Slice),
      (∀ pre v post, x.waitQueue = pre ++ v :: post → x.held v.line = false → (∀ u ∈ pre, x.held u.line = true) →
        (∃ i : RecIdx, x.records[i].phase = .free) →
        ∃ (i : RecIdx) (picks : Nat), x.records[i].phase = .free ∧
          x.arbitrate env = some (Slice.startRecord env i v { x with waitQueue := pre ++ post, picks := picks }))
      ∧ ((∀ u ∈ x.waitQueue, x.held u.line = true) ∨ (∀ i : RecIdx, x.records[i].phase ≠ .free) → x.arbitrate env = none))
  ∧ ∀ (sid : SliceId) (n : Agent) (i : RecIdx) (v : LineAddr) (role : Role) (w : WayIdx) (e : Entry) (ms : List SliceMsg) (s : State),
      s.resetPin = .released → s.links[n].toSlice[sid] = .reply (handleOf sid i) v .clean :: ms →
      let x := s.slices[sid]
      let r := x.records[i]
      x.still (s.env sid) → x.fenced.getLsbD n = false → x.waitQueue = [] →
      x.engine.jobs = [] → x.engine.visit = .idle → x.pendingQuiesce = none →
      r.phase = .gather → r.kind ∈ [.fetchShared, .fetchOwned, .promote] → r.finished = false → r.waits = [] → r.memRead = true →
      r.line ≠ v → r.victim = some v → r.victimWaits = [⟨n, role, .revoke, .awaitingReply⟩] →
      x.holder v = some i → x.entryOf v = some (w, e) →
      exec (.replyClean sid n) s = .next ((s.afterSliceMsg sid n ms).updSlice sid fun x =>
        { x.withWayOut (setOf v) w (.reserved (tagOf r.line) (handleOf sid i)) with
          records := x.records.set i { r with victim := none, victimWaits := [], deadline := .stopped } })

/-! ## Coherence slices: returns, replies and GrantAcks -/

/-- A return is decided at its arrival: of a fenced agent it is discarded; of the owner it is accepted, its data ordered as a full write, the entry
freed and ReturnDone sent, and with the line unheld nothing else changes; where a record holds the line it may be absorbed, and
the event goes on; of an agent that does not own the line, or that
gave it up by a Clean or Dirty reply to a Revoke or Demote, it is reported as a protocol fault (R79 to R82, R84).
While 16 writes of accepted returns wait in the submission list, no ReturnDirty is taken; it stays in its path (R173). -/
def Obligations.AReturnIsDecidedAtItsArrival : Prop :=
  (∀ (sid : SliceId) (n : Agent) (tag : Tag) (line : LineAddr) (d : Option Poisoned) (ms : List SliceMsg) (s : State),
      s.resetPin = .released → s.links[n].toSlice[sid] = .returned tag line d :: ms → s.slices[sid].still (s.env sid) →
      let x := s.slices[sid]
      let t := s.afterSliceMsg sid n ms
      (d = none ∨ (x.submission.filter fun o => o.owner = .accepted).length < 16) →
      let gaveUp (i : RecIdx) (v : Bool) : Prop := ∃ q ∈ x.records[i].waitsOn v,
        q.agent = n ∧ q.state ∈ [.settled .clean, .settled .dirty] ∧ q.probe ∈ [.revoke, .demote]
      let written (x : Slice) : Slice := match d with
        | some d => x.orders (.fullWrite line d) .accepted
        | none => x
      (x.fenced.getLsbD n = true → exec (.returnArrival sid n) s = .next t)
      ∧ (x.fenced.getLsbD n = false →
        (∀ w, x.entryOf line = some (w, .owned n) → (∀ i : RecIdx, ¬x.records[i].holds line) →
          exec (.returnArrival sid n) s = .next (t.updSlice sid fun x =>
            ((written x).withWayOut (setOf line) w .empty).sends n (.response (.returnDone tag))))
        ∧ (∀ w i v, x.entryOf line = some (w, .owned n) → x.holderOf line = some (i, v) → ¬gaveUp i v →
          exec (.returnArrival sid n) s = .next (t.updSlice sid fun x =>
            ((((written x).freeEntry sid line).sends n (.response (.returnDone tag))).absorb (s.env sid) n line d).goOn
              (s.env sid) false))
        ∧ ((∀ w, x.entryOf line ≠ some (w, .owned n)) ∨ (∃ i v, x.holderOf line = some (i, v) ∧ gaveUp i v) →
          exec (.returnArrival sid n) s = .next (t.updSlice sid fun x =>
            x.sends n (.fault .request (if d.isSome then 0x08 else 0x09) (some line) (some tag))))))
  ∧ (∀ (sid : SliceId) (n : Agent) (tag : Tag) (line : LineAddr) (d : Poisoned) (ms : List SliceMsg) (s : State),
      s.resetPin = .released → s.links[n].toSlice[sid] = .returned tag line (some d) :: ms →
      16 ≤ (s.slices[sid].submission.filter fun o => o.owner = .accepted).length →
      exec (.returnArrival sid n) s = .next s)

/-- An accepted return is absorbed into the record that holds its line: the owner's AWAITING REPLY becomes REPLY AFTER RETURN and its AWAITING
RETURN becomes SETTLED; on the request line ReturnDirty data fill the buffer of a record that uses data, ReturnClean calls for a read
where the kind reads memory, and a FetchShared's plan is made again by the sole-reader rule; on the victim line the record takes
no data (R50, R82, R98, R105, R113). -/
def Obligations.AnAcceptedReturnIsAbsorbed : Prop :=
  ∀ (env : Env) (n : Agent) (l : LineAddr) (d : Option Poisoned) (i : RecIdx) (v : Bool) (q : Wait) (x : Slice),
    x.holderOf l = some (i, v) → (x.records[i].waitsOn v).find? (fun w => w.agent = n) = some q →
    let after (st : WaitState) : Slice :=
      let y := x.moveWaitOf env i v n st
      let z := match d with
        | some d =>
          if x.records[i].kind ∈ [Kind.recall, Kind.scrub] then y
          else y.updRec env i fun r => { r with buffer := some ⟨d, .returnDirty⟩ }
        | none =>
          if x.records[i].kind ∈ [Kind.fetchShared, Kind.fetchOwned, Kind.promote, Kind.snapshot] ∧ x.records[i].originFenced = false
          then y.orderRead env i else y
      if v then y else z.updRec env i Record.replan
    (q.role = .owner → q.state = .awaitingReply → x.absorb env n l d = after .replyAfterReturn)
    ∧ (q.role = .owner → q.state = .awaitingReturn → x.absorb env n l d = after (.settled .returned))
    ∧ (q.role = .sharer ∨ (q.state ≠ .awaitingReply ∧ q.state ≠ .awaitingReturn) → x.absorb env n l d = x)

/-- A reply of an agent whose wait it matches settles or moves the wait, and the event goes on: Gone of a sharer, removed at once (R74); Gone of an
owner, that then waits for the return, or is settled if the return came first (R72, R77); Clean of a sharer or of an owner,
where a kind that reads memory orders its read (R75); Dirty of an owner, its data written or kept by the record's kind (R76). -/
def Obligations.AMatchedReplyMovesItsWait : Prop :=
  ∀ (sid : SliceId) (n : Agent) (i : RecIdx) (line : LineAddr) (v : Bool) (q : Wait) (rep : Reply) (ms : List SliceMsg) (s : State),
    s.resetPin = .released → s.links[n].toSlice[sid] = .reply (handleOf sid i) line rep :: ms →
    let x := s.slices[sid]
    x.fenced.getLsbD n = false → x.records[i].phase = .gather →
    (if v then x.records[i].line ≠ line ∧ x.records[i].victim = some line else x.records[i].line = line) →
    (x.records[i].waitsOn v).find? (fun w => w.agent = n) = some q →
    let env := s.env sid
    let kind := x.records[i].kind
    let becomes (c : Instr) (f : Slice → Slice) : Prop :=
      exec c s = .next ((s.afterSliceMsg sid n ms).updSlice sid fun x => (f x).goOn env false)
    (rep = .gone →
      (q.role = .sharer → q.state = .awaitingReply →
        becomes (.replyGone sid n) fun x => (x.moveWaitOf env i v n (.settled .gone)).removeAgent sid line n)
      ∧ (q.role = .owner → q.state = .awaitingReply →
        becomes (.replyGone sid n) fun x => x.moveWaitOf env i v n .awaitingReturn)
      ∧ (q.role = .owner → q.state = .replyAfterReturn →
        becomes (.replyGone sid n) fun x => x.moveWaitOf env i v n (.settled .gone)))
    ∧ (rep = .clean → q.state = .awaitingReply →
      (q.role = .sharer ∨ v = true ∨ kind ∉ [.fetchShared, .fetchOwned, .promote, .snapshot] ∨ x.records[i].originFenced = true →
        becomes (.replyClean sid n) fun x => x.moveWaitOf env i v n (.settled .clean))
      ∧ (q.role = .owner → v = false → kind ∈ [.fetchShared, .fetchOwned, .promote, .snapshot] → x.records[i].originFenced = false →
        becomes (.replyClean sid n) fun x => (x.moveWaitOf env i v n (.settled .clean)).orderRead env i))
    ∧ ∀ d, rep = .dirty d → q.role = .owner → q.state = .awaitingReply →
      let keeps (x : Slice) : Slice := x.updRec env i fun r => { r with buffer := some ⟨d, .dirtyReply⟩ }
      let writes (x : Slice) : Slice := x.orders (.fullWrite line d) (.record i)
      (v = true ∨ kind = .recall →
        becomes (.replyDirty sid n) fun x => writes (x.moveWaitOf env i v n (.settled .dirty)))
      ∧ (v = false → kind = .fetchShared →
        becomes (.replyDirty sid n) fun x => writes (keeps (x.moveWaitOf env i v n (.settled .dirty))))
      ∧ (v = false → kind ∈ [.fetchOwned, .promote, .snapshot, .maskedWrite] →
        becomes (.replyDirty sid n) fun x => keeps (x.moveWaitOf env i v n (.settled .dirty)))
      ∧ (v = false → kind = .scrub → becomes (.replyDirty sid n) fun x => x.moveWaitOf env i v n (.settled .dirty))

/-- A reply that matches no wait, a Dirty of a sharer among them, changes nothing at its record and is reported as a protocol fault with its kind
and line (R78); a fenced agent's reply is discarded (R71). -/
def Obligations.AnUnmatchedReplyIsAFault : Prop :=
  ∀ (sid : SliceId) (n : Agent) (h : Handle) (line : LineAddr) (rep : Reply) (ms : List SliceMsg) (s : State),
    s.resetPin = .released → s.links[n].toSlice[sid] = .reply h line rep :: ms → s.slices[sid].still (s.env sid) →
    let x := s.slices[sid]
    let r := x.records[h.val % 32]
    let arrival : Instr := match rep with
      | .gone => .replyGone sid n
      | .clean => .replyClean sid n
      | .dirty _ => .replyDirty sid n
    let code : BitVec 6 := match rep with
      | .gone => 0x01
      | .clean => 0x02
      | .dirty _ => 0x03
    let noWait (q : Wait) : Prop := q.agent = n →
      q.state = .awaitingReturn ∨ (∃ how, q.state = .settled how) ∨ (q.role = .sharer ∧ ∃ d, rep = .dirty d)
        ∨ (q.state = .replyAfterReturn ∧ rep ≠ .gone)
    (x.fenced.getLsbD n = true → exec arrival s = .next (s.afterSliceMsg sid n ms))
    ∧ (x.fenced.getLsbD n = false →
      r.phase ≠ .gather ∨ (r.line ≠ line ∧ r.victim ≠ some line)
        ∨ ((r.line = line → ∀ q ∈ r.waits, noWait q) ∧ (r.line ≠ line → ∀ q ∈ r.victimWaits, noWait q)) →
      exec arrival s
        = .next ((s.afterSliceMsg sid n ms).updSlice sid fun x => x.sends n (.fault .reply code (some line) none)))

/-- A matched GrantAck ends its record; where no operation of the record still waits, no waiter is in the queue and the engine has no work, the
record is FREE and nothing else changes (R64). One that does not match is reported as a protocol fault with the request
line of a record in use (R65); a fenced agent's is discarded. Log 16: a second GrantAck for a record that only waits for its
operations to be submitted does not match. -/
def Obligations.AGrantAckEndsItsRecord : Prop :=
  ∀ (sid : SliceId) (n : Agent) (h : Handle) (ms : List SliceMsg) (s : State),
    s.resetPin = .released → s.links[n].toSlice[sid] = .grantAck h :: ms →
    let x := s.slices[sid]
    let i : RecIdx := handleIdx h
    let r := x.records[i]
    let t := s.afterSliceMsg sid n ms
    let matched : Prop := r.phase = .confirm ∧ r.finished = false ∧ ∃ tag, r.originator = .agent n tag
    (x.fenced.getLsbD n = true → x.still (s.env sid) → exec (.grantAckArrival sid n) s = .next t)
    ∧ (x.fenced.getLsbD n = false → matched →
      exec (.grantAckArrival sid n) s = .next (t.updSlice sid fun x =>
        (x.updRec (s.env sid) i fun r => { r with finished := true }).goOn (s.env sid) false))
    ∧ (x.fenced.getLsbD n = false → matched → x.still (s.env sid) → x.noOps i = true → x.waitQueue = [] →
      x.engine.jobs = [] → x.engine.visit = .idle → x.pendingQuiesce = none → x.reservationOf r.line = none → r.victim = none →
      exec (.grantAckArrival sid n) s = .next (t.updSlice sid fun x => { x with records := x.records.set i Record.free }))
    ∧ (x.fenced.getLsbD n = false → ¬matched → x.still (s.env sid) →
      exec (.grantAckArrival sid n) s = .next (t.updSlice sid fun x =>
        x.sends n (.fault .reply 0x04 (if r.phase = .free then none else some r.line) none)))

/-- The response deadline of a record expires when its time has come: it stops, and TIMEOUT, naming the request line, goes to the link unit of
every agent the record awaits, and nowhere else (R41). Log 2: before its time there is no such event.
The flush timer expires: a FLUSH_TIMEOUT report to each pending agent's link unit, the set emptied, the timer stopped, SWEEPING entered (R189, R190). Log 2:
before its time, and outside FLUSHING, there is no such event. -/
def Obligations.TimersExpireAtTheirTime : Prop :=
  (∀ (h : Handle) (e : Nat) (s : State), s.resetPin = .released →
      let sid := handleSlice h
      let i := handleIdx h
      let x := s.slices[sid]
      let r := x.records[i]
      let awaited (n : Agent) : Bool :=
        (r.waits ++ r.victimWaits).any (fun q => q.live && q.agent = n)
          || (r.phase = .confirm && !r.finished && r.isFrom n)
      x.still (s.env sid) → r.deadline = .running e →
      (e ≤ s.now → exec (.responseDeadlineExpiry h) s = .next (s.updSlice sid fun x =>
        { x with
          records := x.records.set i { r with deadline := .expired }
          toLink := Vector.ofFn fun n => if awaited n then x.toLink[n] ++ [.timeout r.line] else x.toLink[n] }))
      ∧ (s.now < e → exec (.responseDeadlineExpiry h) s = .next s))
  ∧ (∀ (e : Nat) (s : State), s.resetPin = .released → s.mgmt.quiesce.timer = some e →
      let q := s.mgmt.quiesce
      (q.state = .flushing → e ≤ s.now →
        exec .flushTimerExpiry s = .next
          { s with
            links := Vector.ofFn fun n =>
              if q.flushPending.getLsbD n
              then { s.links[n] with fromController := s.links[n].fromController ++ [.flushTimeout] } else s.links[n]
            mgmt := { s.mgmt with
              quiesce := { q with state := .sweeping, flushPending := 0#8, timer := none, reported := 0#4 }
              cmdPath := s.mgmt.cmdPath.map (· ++ [.sweepStart q.number]) } })
      ∧ (q.state ≠ .flushing ∨ s.now < e → exec .flushTimerExpiry s = .next s))

/-- The oldest completion of a read of a line fills the data buffer of the record its handle names with source memory, unless the originator
is fenced, and clears the memory-read flag; then the event goes on (R28, R57, R175).
The grant: the completion of the read that a caching record waited for last sends it with tag, handle, data and Poison, makes the entry in the
line's way at the front of the recency order, and puts the record into CONFIRM, its buffer dropped, with a new deadline (R14, R16,
R17, R59 to R61).
Whatever event came last, a record that awaits nothing sends the grant of its plan so, GrantPromote without data (R54, R60); the Clean reply of
the last sharer that a promotion revoked brings GrantPromote in its own event. -/
def Obligations.AReadCompletionFillsTheBuffer : Prop :=
  (∀ (line : LineAddr) (c : Completion) (pre post : List Completion) (s : State), s.resetPin = .released →
      s.mem.completions = pre ++ c :: post → c.line = line → (∀ q ∈ pre, q.line ≠ line) →
      exec (.memoryReadCompletion line) s
        = .next ((s.updMem fun m => { m with completions := pre ++ post }).updSlice (handleSlice c.handle) fun x =>
          (x.updRec (s.env (handleSlice c.handle)) (handleIdx c.handle) fun r =>
            { r with
              memRead := false
              buffer := if r.originFenced then r.buffer else some ⟨c.data, .memory⟩ }).goOn (s.env (handleSlice c.handle)) false))
  ∧ (∀ (c : Completion) (rest : List Completion) (a : Agent) (tag : Tag) (w : WayIdx) (s : State), s.resetPin = .released →
      s.mem.completions = c :: rest →
      let sid := handleSlice c.handle
      let i := handleIdx c.handle
      let x := s.slices[sid]
      let r := x.records[i]
      x.still (s.env sid) → r.phase = .gather → r.kind ∈ [.fetchShared, .fetchOwned, .promote] → r.finished = false →
      r.originFenced = false → r.memRead = true → r.victim = none → r.originator = .agent a tag →
      (∀ q ∈ r.waits ++ r.victimWaits, q.live = false) →
      (∃ e, x.entryOf r.line = some (w, e)) ∨ (x.entryOf r.line = none ∧ ∃ h, x.reservationOf r.line = some (w, h)) →
      let grants (m : Response) (e : Entry) : Prop :=
        exec (.memoryReadCompletion c.line) s
          = .next ((s.updMem fun m => { m with completions := rest }).updSlice sid fun x =>
            { (x.sends a (.response m)).withWayFront (setOf r.line) w (.occupied (tagOf r.line) e) with
              records := x.records.set i
                { r with
                  phase := .confirm
                  memRead := false
                  buffer := none
                  deadline := .running (s.now + s.mgmt.responseTimeout.toNat) } })
      (∀ b, r.plan = .grantShared b → grants (.grantShared tag c.handle c.data) (.shared b))
      ∧ (r.plan = .grantOwned → grants (.grantOwned tag c.handle c.data) (.owned a)))
  ∧ (∀ (env : Env) (i : RecIdx) (a : Agent) (tag : Tag) (w : WayIdx) (x : Slice),
      let r := x.records[i]
      r.phase = .gather → r.kind ∈ [.fetchShared, .fetchOwned, .promote] → r.finished = false → r.originFenced = false →
      r.memRead = false → r.victim = none → r.originator = .agent a tag → (∀ q ∈ r.waits ++ r.victimWaits, q.live = false) →
      (∃ e, x.entryOf r.line = some (w, e)) ∨ (x.entryOf r.line = none ∧ ∃ h, x.reservationOf r.line = some (w, h)) →
      let grants (m : Response) (e : Entry) : Prop :=
        x.progress env i = some
          { (x.sends a (.response m)).withWayFront (setOf r.line) w (.occupied (tagOf r.line) e) with
            records := x.records.set i
              { r with phase := .confirm, buffer := none, deadline := .running (env.now + env.timeout) } }
      (∀ b d, r.plan = .grantShared b → r.buffer = some d → grants (.grantShared tag (handleOf env.sid i) d.data) (.shared b))
      ∧ (∀ d, r.plan = .grantOwned → r.buffer = some d → grants (.grantOwned tag (handleOf env.sid i) d.data) (.owned a))
      ∧ (r.plan = .grantPromote → grants (.grantPromote tag (handleOf env.sid i)) (.owned a)))
  ∧ ∀ (sid : SliceId) (n a : Agent) (i : RecIdx) (line : LineAddr) (tag : Tag) (w : WayIdx) (e : Entry) (ms : List SliceMsg) (s : State),
      s.resetPin = .released → s.links[n].toSlice[sid] = .reply (handleOf sid i) line .clean :: ms →
      let x := s.slices[sid]
      let r := x.records[i]
      x.still (s.env sid) → x.fenced.getLsbD n = false → r.phase = .gather → r.kind = .promote → r.plan = .grantPromote →
      r.finished = false → r.originFenced = false → r.memRead = false → r.victim = none → r.victimWaits = [] →
      r.originator = .agent a tag → r.line = line → r.waits = [⟨n, .sharer, .revoke, .awaitingReply⟩] →
      x.entryOf line = some (w, e) →
      exec (.replyClean sid n) s = .next ((s.afterSliceMsg sid n ms).updSlice sid fun x =>
        { (x.sends a (.response (.grantPromote tag (handleOf sid i)))).withWayFront (setOf line) w (.occupied (tagOf line) (.owned a)) with
          records := x.records.set i
            { r with
              phase := .confirm
              waits := [⟨n, .sharer, .revoke, .settled .clean⟩]
              buffer := none
              deadline := .running (s.now + s.mgmt.responseTimeout.toNat) } })

/-- What a Snapshot and a MaskedWrite do by themselves, as soon as they can: SnapshotData with the buffer once nothing is awaited or outstanding
(R99); the write over a known base, the entry freed (R102 to R106); WriteDone once the write has been submitted and no agent is
awaited (R107); nothing sent for a fenced originator (R108).
A merge, byte by byte and for Poison (R106). -/
def Obligations.SnapshotsAndMaskedWritesGoOn : Prop :=
  (∀ (env : Env) (i : RecIdx) (n : Agent) (tag : Tag) (x : Slice),
      let r := x.records[i]
      r.phase = .gather → r.finished = false → r.originator = .agent n tag →
      (∀ b, r.kind = .snapshot → r.awaits = false → r.memRead = false → r.buffer = some b → r.originFenced = false →
        x.progress env i = some ((x.sends n (.response (.snapshotData tag b.data))).finish env i))
      ∧ (r.kind = .snapshot → r.awaits = false → r.memRead = false → r.originFenced = true →
        x.progress env i = some (x.finish env i))
      ∧ (∀ w b, r.kind = .maskedWrite → r.ordered = false → r.baseKnown = true → r.write = some w → r.buffer = some b →
        x.progress env i = some (((x.orders (.fullWrite r.line
          ⟨mergeBytes w.mask w.data.bytes b.data.bytes, mergedPoison w.data.poison w.mask b.data.poison⟩) (.record i)).freeEntry
            env.sid r.line).updRec env i fun r => { r with ordered := true }))
      ∧ (∀ w, r.kind = .maskedWrite → r.ordered = false → r.baseKnown = true → r.write = some w → r.buffer = none →
        let merged := x.orders (.mergeWrite r.line w.data.bytes w.mask) (.record i)
        x.progress env i = some ((Slice.freeEntry
          (if w.data.poison then merged.orders (.poisonWrite r.line) (.record i) else merged) env.sid r.line).updRec env i
            fun r => { r with ordered := true }))
      ∧ (r.kind = .maskedWrite → r.ordered = true → r.awaits = false → x.noOps i = true →
        x.progress env i = some (Slice.finish env i
          (if r.originFenced then x else x.sends n (.response (.writeDone tag))))))
  ∧ ((∀ (mask : ByteMask) (new base : LineData) (i : Fin 64),
      (mergeBytes mask new base)[i] = if mask.getLsbD i then new[i] else base[i])
    ∧ ∀ (p base : Bool) (mask : ByteMask),
      (p = true → mergedPoison p mask base = true)
      ∧ (p = false → mask = BitVec.allOnes 64 → mergedPoison p mask base = false)
      ∧ (p = false → mask ≠ BitVec.allOnes 64 → mergedPoison p mask base = base))

/-- A record that has made its last act ends once its operations have left the list. At its end its reservation, if it has one, becomes EMPTY (R20)
and the jobs that a recall served have one recall in flight less (R127); its line passes with the record to the oldest waiter for it;
without one the record goes to the oldest waiter whose line is not held; without one it is FREE (R28, R36, R37).
A caching record whose originator is fenced ends, once nothing is awaited, after its last write, if it took Dirty data to its Revoke, has
been submitted, and makes the edit of R62 and R163 in place of the grant's: for each of its waits in turn a sharer that answered Clean is
removed, an owner that answered a Demote is left as sharer, and an owner that answered a Revoke or was lost frees the entry. That a read
ordered before the fence notice is awaited even where it was still in the submission list then is the model's choice (log 33). -/
def Obligations.ARecordPassesOnAtItsEnd : Prop :=
  (∀ (env : Env) (i : RecIdx) (x : Slice),
      let r := x.records[i]
      let unreserved : Slice := match x.reservationOf r.line with
        | some (w, h) => if h = handleOf env.sid i then x.withWay (setOf r.line) w .empty else x
        | none => x
      let ended (j : Job) : Job :=
        let served : Bool := match j.kind with
          | .drain n => r.servesDrain.getLsbD n
          | .fence _ => false
          | .quiesce _ => r.servesQuiesce
        { j with inFlight := if served then j.inFlight - 1 else j.inFlight }
      let freed : Slice :=
        { unreserved with
          records := x.records.set i Record.free
          engine := { x.engine with jobs := x.engine.jobs.map ended } }
      (∀ pre v post, x.waitQueue = pre ++ v :: post → v.line = r.line → (∀ u ∈ pre, u.line ≠ r.line) →
        x.endRecord env i = Slice.startRecord env i v { freed with waitQueue := pre ++ post })
      ∧ ((∀ u ∈ x.waitQueue, u.line ≠ r.line) →
        (∀ pre v post, x.waitQueue = pre ++ v :: post → freed.held v.line = false → (∀ u ∈ pre, freed.held u.line = true) →
          x.endRecord env i = Slice.startRecord env i v { freed with waitQueue := pre ++ post })
        ∧ ((∀ u ∈ x.waitQueue, freed.held u.line = true) → x.endRecord env i = freed)))
  ∧ (∀ (env : Env) (i : RecIdx) (x : Slice),
      let r := x.records[i]
      r.phase ≠ .free → r.finished = true →
      (x.noOps i = false → x.progress env i = none) ∧ (x.noOps i = true → x.progress env i = some (x.endRecord env i)))
  ∧ (∀ (env : Env) (i : RecIdx) (x : Slice),
      let r := x.records[i]
      r.phase = .gather → r.finished = false → r.kind ∈ [.fetchShared, .fetchOwned, .promote] → r.originFenced = true →
      let waiting : Prop := r.awaits = true ∨ r.memRead = true ∨ r.victim ≠ none
      let written : Prop := ∃ q ∈ r.waits, q.role = .owner ∧ q.probe = .revoke ∧ q.state = .settled .dirty
      (waiting → x.progress env i = none)
      ∧ (¬waiting → ∀ d, written → r.buffer = some d → r.ordered = false →
        x.progress env i = some ((x.orders (.fullWrite r.line d.data) (.record i)).updRec env i fun r => { r with ordered := true }))
      ∧ (¬waiting → ¬written ∨ r.buffer = none ∨ r.ordered = true →
        (x.noOps i = false → x.progress env i = none)
        ∧ (x.noOps i = true → x.progress env i = some ((x.fencedEdit env i).endRecord env i))))
  ∧ (∀ (env : Env) (i : RecIdx) (x : Slice),
      let l := x.records[i].line
      let edit (y : Slice) (q : Wait) : Slice :=
        if q.state = .settled .clean ∧ q.role = .sharer then y.removeAgent env.sid l q.agent
        else if q.role = .owner ∧ q.probe = .demote ∧ (q.state = .settled .clean ∨ q.state = .settled .dirty) then
          (match y.entryOf l with
          | some (w, _) => y.withWay (setOf l) w (.occupied (tagOf l) (.shared (1#8 <<< q.agent.val)))
          | none => y)
        else if q.role = .owner ∧ (q.state = .settled .lost
            ∨ (q.probe = .revoke ∧ (q.state = .settled .clean ∨ q.state = .settled .dirty))) then y.freeEntry env.sid l
        else y
      x.fencedEdit env i = x.records[i].waits.foldl edit x)

/-! ## Coherence slices: fences and drains -/

/-- At the fence notice a wait on the agent is settled by its role and state (R161): a sharer's as Gone, the agent removed at once; an owner's whose
return was absorbed as Gone; a settled one stays; an owner's whose return was not absorbed is lost, with the writes of R162 ordered, and
no read for a fenced originator (R163).
A probe that a record decides: an agent that is not fenced is sent it, with the record's handle and the line, and awaited (R68); a fenced one is
sent none, and the wait is taken and settled so at once (R164). -/
def Obligations.WaitsOnAFencedAgentAreSettled : Prop :=
  (∀ (env : Env) (i : RecIdx) (v : Bool) (k : ProbeKind) (role : Role) (n : Agent) (x : Slice),
      let waiting : Slice := x.updRec env i fun r => r.setWaits v (r.waitsOn v ++ [⟨n, role, k, .awaitingReply⟩])
      (x.fenced.getLsbD n = false →
        x.probeAgent env i v k role n = waiting.sends n (.probe ⟨k, handleOf env.sid i, x.records[i].lineOn v⟩))
      ∧ (x.fenced.getLsbD n = true → x.probeAgent env i v k role n = waiting.settleFenced env i v n))
  ∧ ∀ (env : Env) (i : RecIdx) (v : Bool) (n : Agent) (q : Wait) (x : Slice),
    let r := x.records[i]
    (r.waitsOn v).find? (fun w => w.agent = n) = some q →
    let lost : Slice := x.moveWaitOf env i v n (.settled .lost)
    let poisoned : Slice := lost.orders (.poisonWrite (r.lineOn v)) (.record i)
    let unread : Prop := q.state = .awaitingReply ∨ q.state = .awaitingReturn
    ((∃ how, q.state = .settled how) → x.settleFenced env i v n = x)
    ∧ (q.role = .sharer → q.state = .awaitingReply →
      x.settleFenced env i v n = (x.moveWaitOf env i v n (.settled .gone)).removeAgent env.sid (r.lineOn v) n)
    ∧ (q.role = .owner → q.state = .replyAfterReturn → x.settleFenced env i v n = x.moveWaitOf env i v n (.settled .gone))
    ∧ (q.role = .owner → unread → v = true ∨ r.kind = .recall → x.settleFenced env i v n = poisoned)
    ∧ (q.role = .owner → unread → v = false → r.kind ∈ [.fetchShared, .fetchOwned, .promote, .snapshot] →
      x.settleFenced env i v n
        = if r.originFenced then poisoned else (poisoned.updRec env i Record.replan).orderRead env i)
    ∧ ∀ w, r.write = some w →
      let merged : Slice := poisoned.orders (.mergeWrite r.line w.data.bytes w.mask) (.record i)
      let written : Slice :=
        if w.mask = BitVec.allOnes 64 then lost.orders (.fullWrite r.line w.data) (.record i)
        else if w.data.poison then merged.orders (.poisonWrite r.line) (.record i) else merged
      (q.role = .owner → unread → v = false → r.kind = .maskedWrite →
        x.settleFenced env i v n = (written.freeEntry env.sid r.line).updRec env i fun r => { r with ordered := true })
      ∧ (q.role = .owner → unread → v = false → r.kind = .scrub →
        x.settleFenced env i v n
          = ((lost.orders (.fullWrite r.line w.data) (.record i)).freeEntry env.sid r.line).updRec env i
            fun r => { r with ordered := true })

/-- A slice takes a fence notice: the agent joins the fenced-agent set and its waiters leave without a response; its records are marked and its
waits settled, and what can go on goes on; then its DRAIN job, if any, gives way to a FENCE job of 2048 sets, and the arbiter acts
(R118, R119, R160). That the agent's drain notice is forgotten here (log 9), that the records are taken in the order of their numbers, and that
the engine gets a record which ends before the jobs change only after they have changed (log 17) are the model's choices. That the engine keeps
its visit where the FENCE job replaces the last DRAIN job, and that the FENCE job is late also where the visit is `leaving`, are the model's
readings (R118, R119, log 14).
Step 3 of R160 at one record in use: a record of the fenced agent is marked, one of its in CONFIRM ends as if the GrantAck had come (R67), and the
record's waits on the agent are settled, on the request line and on the victim line. That a read which the record has ordered and which is
still in the submission list stays there is the model's choice (log 33). -/
def Obligations.AFenceNoticeIsTaken : Prop :=
  (∀ (sid : SliceId) (n : Agent) (xs : List Notice) (s : State), s.resetPin = .released →
      s.links[n].notices[sid] = .fence :: xs →
      let env := s.env sid
      let cut (x : Slice) : Slice :=
        { x with
          fenced := x.fenced ||| (1#8 <<< n.val)
          draining := x.draining &&& ~~~(1#8 <<< n.val)
          waitQueue := x.waitQueue.filter fun w => !w.isFrom n }
      let settled (x : Slice) : Slice := (List.finRange 32).foldl (Slice.fenceRecord env n) (cut x)
      let wentOn (x : Slice) : Slice := Slice.settle env false (settled x).fuel false (settled x)
      let replaced (x : Slice) : Slice :=
        { x with
          records := x.records.map fun r => { r with servesDrain := r.servesDrain &&& ~~~(1#8 <<< n.val) }
          engine := { x.engine with
            jobs := x.engine.jobs.filter (fun j => j.kind != .drain n) ++
              [⟨.fence n, 2048, 0, false, x.engine.visit = .waitingForRecord || x.engine.visit = .leaving⟩]
            visit := if x.engine.visit = .idle then .waitingAtSet else x.engine.visit } }
      exec (.fenceNotice sid n) s = .next ((s.afterNotice sid n xs).updSlice sid fun x =>
        (replaced (wentOn x)).goOn env true))
  ∧ (∀ (env : Env) (n : Agent) (i : RecIdx) (x : Slice),
      let r := x.records[i]
      let settle (y : Slice) : Slice := (y.settleFenced env i false n).settleFenced env i true n
      (r.phase = .free → x.fenceRecord env n i = x)
      ∧ (r.phase ≠ .free → r.isFrom n = false → x.fenceRecord env n i = settle x)
      ∧ (r.phase = .gather → r.isFrom n = true →
        x.fenceRecord env n i = settle (x.updRec env i fun r => { r with originFenced := true }))
      ∧ (r.phase = .confirm → r.isFrom n = true →
        x.fenceRecord env n i = settle (x.updRec env i fun r => { r with originFenced := true, finished := true })))

/-- The other notices of a link unit: a drain notice removes the agent's waiters, each answered Refused(DEPARTING), and the arbiter acts (R34, R38,
R148); a drain sweep notice adds a DRAIN job of 2048 sets left (R118, R149); a release notice takes the agent out of the
fenced-agent set (R159, R168). That the waiters are answered oldest first is the model's choice (log 17); that the job is late also where the
engine's visit is `leaving` is the model's reading (log 14). -/
def Obligations.DrainAndReleaseNoticesAreTaken : Prop :=
  ∀ (sid : SliceId) (n : Agent) (s : State), s.resetPin = .released →
    let env := s.env sid
    (∀ xs, s.links[n].notices[sid] = .drain :: xs →
      let refusals (x : Slice) : List LinkMsg := (x.waitQueue.filter (Waiter.isFrom n)).filterMap fun w =>
        match w.originator with
        | .agent _ t => some (.response (.refused t .departing))
        | _ => none
      exec (.drainNotice sid n) s = .next ((s.afterNotice sid n xs).updSlice sid fun x =>
        Slice.goOn env true
          { x with
            draining := x.draining ||| (1#8 <<< n.val)
            waitQueue := x.waitQueue.filter fun w => !w.isFrom n
            toLink := x.toLink.set n (x.toLink[n] ++ refusals x) }))
    ∧ (∀ xs, s.links[n].notices[sid] = .drainSweep :: xs →
      exec (.drainSweepNotice sid n) s = .next ((s.afterNotice sid n xs).updSlice sid fun x =>
        Slice.goOn env false
          { x with engine :=
            { x.engine with
              jobs := x.engine.jobs ++
                [⟨.drain n, 2048, 0, false, x.engine.visit = .waitingForRecord || x.engine.visit = .leaving⟩]
              visit := if x.engine.visit = .idle then .waitingAtSet else x.engine.visit } }))
    ∧ ∀ ms, s.links[n].toSlice[sid] = .release :: ms → (s.slices[sid]).still env →
      exec (.releaseNotice sid n) s = .next ((s.afterSliceMsg sid n ms).updSlice sid fun x =>
        { x with fenced := x.fenced &&& ~~~(1#8 <<< n.val) })

/-! ## Coherence slices: the sweep engine, commands and Scrub -/

/-- The engine arrives at its position and begins a visit there; where the set is not settled, because a way of it is RESERVED or a line of it is
held by a record other than a recall of this visit, it waits (R120, R123).
At a settled set it applies its jobs: those with sets left that did not join late (log 14) are marked as applied, and each way is taken in order
(R121): an OCCUPIED way whose line is not held gets the fence actions of the applied FENCE jobs (R165), and its line becomes pending where
an applied DRAIN job's agent is still named, or a QUIESCE job is applied and the entry still exists.
WAITING FOR RECORD, it examines its oldest pending line where a record is FREE and no waiter is eligible: a held line sends it back to WAITING
AT SET without pending lines, a line that no applied job concerns any longer is dropped, and for any other the recall starts (R122); log
4: which FREE record it is stays open. A recall holds its line, revokes every agent of its revoke set, none of them fenced, and is counted
at the QUIESCE job if that is applied and at each DRAIN job whose agent is in the revoke set, applied or not (R125).
A recall ends where every wait is settled and its operations have left the list (R127, R173): the agents of the revoke set are removed, and
by log 15 every fenced agent that the entry still names, an owner with a poison write (R166).
The engine leaves a set once no poison write of the visit waits: the applied jobs have one set less, the position goes up by one and wraps
after 2047, and the engine travels while a job has sets left (R123, R173).
A job without sets left and recalls in flight completes and is reported: DRAIN and FENCE to the agent's link unit, QUIESCE to the quiesce
controller with its number (R124). Log 9: the drain notice is then no longer in force. Log 17: where the walk could act in the same event
too, the completion comes first, and of several complete jobs the one that joined first. -/
def Obligations.TheEngineWalks : Prop :=
  let unsettled (x : Slice) : Prop :=
    (∃ (w : WayIdx) (t : BitVec 15) (h : Handle), (x.getSet x.engine.position).ways[w] = .reserved t h)
    ∨ ∃ (i : RecIdx) (l : LineAddr), x.records[i].holds l ∧ setOf l = x.engine.position
      ∧ ¬(x.records[i].kind = .recall ∧ x.records[i].thisVisit = true)
  let concerned (x : Slice) (l : LineAddr) : Prop :=
    ∃ w e, x.entryOf l = some (w, e) ∧ ∃ j ∈ x.engine.jobs, j.applied = true
      ∧ ((∃ k, j.kind = .quiesce k) ∨ ∃ n : Agent, j.kind = .drain n ∧ e.agents.getLsbD n = true)
  (∀ (sid : SliceId) (s : State), s.resetPin = .released → s.slices[sid].engine.visit = .travelling →
      exec (.sweepArrival sid) s = .next (s.updSlice sid fun x =>
        Slice.goOn (s.env sid) false { x with engine := { x.engine with visit := .waitingAtSet } })
      ∧ (s.slices[sid].still (s.env sid) → unsettled s.slices[sid] →
        exec (.sweepArrival sid) s = .next (s.updSlice sid fun x =>
          { x with engine := { x.engine with visit := .waitingAtSet } })))
  ∧ (∀ (env : Env) (x : Slice), x.engine.visit = .leaving →
      ((∃ o ∈ x.submission, o.owner = .engine) → x.walkAct env = none)
      ∧ ((∀ o ∈ x.submission, o.owner ≠ .engine) →
        ∃ y, x.walkAct env = some y
          ∧ y.engine.position = (x.engine.position + 1) % 2048
          ∧ y.engine.jobs = x.engine.jobs.map (fun j =>
            { j with setsLeft := if j.applied then j.setsLeft - 1 else j.setsLeft, applied := false, late := false })
          ∧ ((∃ j ∈ y.engine.jobs, 0 < j.setsLeft) → y.engine.visit = .travelling)
          ∧ ((∀ j ∈ y.engine.jobs, j.setsLeft = 0) → y.engine.visit = .idle)
          ∧ y.dir = x.dir ∧ y.submission = x.submission ∧ y.waitQueue = x.waitQueue ∧ y.toLink = x.toLink))
  ∧ (∀ (env : Env) (x : Slice), x.engine.visit = .waitingAtSet →
      let marked : Slice :=
        { x with engine := { x.engine with
          jobs := x.engine.jobs.map fun j => { j with applied := j.applied || (0 < j.setsLeft && !j.late) }
          pendingLines := [] } }
      let applied : Slice := (List.finRange 8).foldl (Slice.applyAtWay env.sid x.engine.position) marked
      (unsettled x → x.walkAct env = none)
      ∧ (¬unsettled x → x.walkAct env = some
        { applied with
          engine := { applied.engine with visit := if applied.engine.pendingLines = [] then .leaving else .waitingForRecord } }))
  ∧ (∀ (sid : SliceId) (p : Nat) (w : WayIdx) (x : Slice),
      ((∀ t e, (x.getSet p).ways[w] ≠ .occupied t e) → x.applyAtWay sid p w = x)
      ∧ ∀ t e, (x.getSet p).ways[w] = .occupied t e →
        let l := lineOf sid p t
        let fences : List Agent := x.engine.jobs.filterMap fun j => match j.kind, j.applied with
          | .fence n, true => some n
          | _, _ => none
        let edited : Slice := fences.foldl (Slice.fenceAction sid l) x
        (x.held l = true → x.applyAtWay sid p w = x)
        ∧ (x.held l = false → concerned edited l → x.applyAtWay sid p w
          = { edited with engine := { edited.engine with pendingLines := edited.engine.pendingLines ++ [l] } })
        ∧ (x.held l = false → ¬concerned edited l → x.applyAtWay sid p w = edited))
  ∧ (∀ (env : Env) (x : Slice), x.engine.visit = .waitingForRecord →
      (x.engine.pendingLines = [] → x.walkAct env = some { x with engine := { x.engine with visit := .leaving } })
      ∧ ∀ l ls, x.engine.pendingLines = l :: ls →
        ((∃ v ∈ x.waitQueue, x.held v.line = false) ∨ (∀ i : RecIdx, x.records[i].phase ≠ .free) → x.walkAct env = none)
        ∧ ((∀ v ∈ x.waitQueue, x.held v.line = true) → (∃ i : RecIdx, x.records[i].phase = .free) →
          (x.held l = true →
            x.walkAct env = some { x with engine := { x.engine with visit := .waitingAtSet, pendingLines := [] } })
          ∧ (x.held l = false → ¬concerned x l →
            x.walkAct env = some { x with engine := { x.engine with pendingLines := ls } })
          ∧ (x.held l = false → concerned x l →
            ∃ (i : RecIdx) (picks : Nat), x.records[i].phase = .free ∧ x.walkAct env = some (Slice.startRecall env i l
              { x with picks := picks, engine := { x.engine with pendingLines := ls } }))))
  ∧ (∀ (env : Env) (i : RecIdx) (l : LineAddr) (w : WayIdx) (e : Entry) (quiesce : Bool) (drains active : AgentSet) (x : Slice),
      x.entryOf l = some (w, e) →
      (quiesce = true ↔ ∃ j ∈ x.engine.jobs, j.applied = true ∧ ∃ k, j.kind = .quiesce k) →
      (∀ n : Agent, drains.getLsbD n = true ↔ ∃ j ∈ x.engine.jobs, j.applied = true ∧ j.kind = .drain n) →
      (∀ n : Agent, active.getLsbD n = true ↔ ∃ j ∈ x.engine.jobs, j.kind = .drain n) →
      let revoke : AgentSet := if quiesce then e.agents else e.agents &&& drains
      (∀ n : Agent, revoke.getLsbD n = true → x.fenced.getLsbD n = false) →
      x.startRecall env i l =
        { x.probes revoke ⟨.revoke, handleOf env.sid i, l⟩ with
          records := x.records.set i
            { Record.started .sweep .recall l none false with
              waits := waitsOnAgents revoke e.role .revoke
              deadline := env.deadlineFor revoke
              revokeSet := revoke
              servesDrain := revoke &&& active
              servesQuiesce := quiesce
              thisVisit := true }
          engine := { x.engine with jobs := x.engine.jobs.map fun j =>
            let served : Bool := match j.kind with
              | .drain n => revoke.getLsbD n
              | .fence _ => false
              | .quiesce _ => j.applied
            { j with inFlight := if served then j.inFlight + 1 else j.inFlight } } })
  ∧ (∀ (env : Env) (i : RecIdx) (x : Slice),
      let r := x.records[i]
      let l := r.line
      r.phase = .gather → r.finished = false → r.kind = .recall →
      ((r.awaits = true ∨ x.noOps i = false) → x.progress env i = none)
      ∧ (r.awaits = false → x.noOps i = true → x.progress env i = some ((x.recallEdit env i).endRecord env i))
      ∧ (x.directoryConsistent env.sid →
        (x.entryOf l = none → x.recallEdit env i = x)
        ∧ (∀ w a, x.entryOf l = some (w, .shared a) →
          let left : AgentSet := a &&& ~~~r.revokeSet &&& ~~~x.fenced
          (left = a → x.recallEdit env i = x)
          ∧ (left ≠ a → left ≠ 0#8 → x.recallEdit env i = x.withWay (setOf l) w (.occupied (tagOf l) (.shared left)))
          ∧ (left = 0#8 → x.recallEdit env i = x.freeEntry env.sid l))
        ∧ ∀ w b, x.entryOf l = some (w, .owned b) →
          (r.revokeSet.getLsbD b = true → x.recallEdit env i = x.freeEntry env.sid l)
          ∧ (r.revokeSet.getLsbD b = false → x.fenced.getLsbD b = true →
            x.recallEdit env i = (x.orders (.poisonWrite l) .engine).freeEntry env.sid l)
          ∧ (r.revokeSet.getLsbD b = false → x.fenced.getLsbD b = false → x.recallEdit env i = x)))
  ∧ (∀ (env : Env) (pre post : List Job) (j : Job) (x : Slice), x.engine.jobs = pre ++ j :: post →
      j.setsLeft = 0 → j.inFlight = 0 → (∀ k ∈ pre, k.setsLeft ≠ 0 ∨ k.inFlight ≠ 0) →
      let left : Slice := { x with engine := { x.engine with jobs := pre ++ post } }
      (∀ n, j.kind = .drain n → x.engineAct env
        = some { left.sends n .drainDone with draining := x.draining &&& ~~~(1#8 <<< n.val) })
      ∧ (∀ n, j.kind = .fence n → x.engineAct env = some (left.sends n .fenceDone))
      ∧ ∀ k, j.kind = .quiesce k → x.engineAct env = some { left with toController := x.toController ++ [k] })

/-- The notices of the quiesce controller: a sweep start notice leaves a pending quiesce sweep (R190). Its QUIESCE job joins, with 2048 sets left,
in the event in which no record is in use and no waiter is left, and not before (R118, R191); that a job which completes and the engine's walk
come first in that event is the model's choice (log 17), and that the job is late also where the visit is `leaving` its reading (log 14). At a
slice with an empty directory and no work the notice, the joining and the visit of the first set are one event. A withdrawal notice clears the pending sweep, removes the job, and an engine without work is IDLE (R119, R194).
A QUIESCE job completion under the current number, in SWEEPING, joins the slices reported, and the fourth enters QUIESCED with outcome COMPLETED and the
quiesce item; any other is ignored (R192). -/
def Obligations.QuiesceNoticesAndReports : Prop :=
  (∀ (sid : SliceId) (ms : List CommandMsg) (s : State), s.resetPin = .released →
      let env := s.env sid
      (∀ k, s.mgmt.cmdPath[sid] = .sweepStart k :: ms →
        exec (.sweepStartNotice sid) s = .next ((s.afterCommand sid ms).updSlice sid fun x =>
          Slice.goOn env false { x with pendingQuiesce := some k })
        ∧ (s.slices[sid].still env → (∃ i : RecIdx, s.slices[sid].records[i].phase ≠ .free) →
          exec (.sweepStartNotice sid) s = .next ((s.afterCommand sid ms).updSlice sid fun x =>
            { x with pendingQuiesce := some k })))
      ∧ (s.mgmt.cmdPath[sid] = .withdrawal :: ms →
        exec (.withdrawalNotice sid) s = .next ((s.afterCommand sid ms).updSlice sid fun x =>
          let jobs := x.engine.jobs.filter fun j => match j.kind with
            | .quiesce _ => false
            | _ => true
          let dropped : Slice :=
            { x with
              pendingQuiesce := none
              engine := { x.engine with jobs := jobs }
              records := x.records.map fun r => { r with servesQuiesce := false } }
          Slice.goOn env false
            (if jobs.any fun j => 0 < j.setsLeft then dropped
            else
              { dropped with
                engine := { dropped.engine with visit := .idle, pendingLines := [] }
                records := dropped.records.map fun r => { r with thisVisit := false } }))))
  ∧ (∀ (env : Env) (k : BitVec 8) (x : Slice), x.pendingQuiesce = some k →
      (∀ j ∈ x.engine.jobs, j.setsLeft ≠ 0 ∨ j.inFlight ≠ 0) → x.walkAct env = none →
      ((∀ i : RecIdx, x.records[i].phase = .free) → x.waitQueue = [] →
        x.engineAct env = some
          { x with
            pendingQuiesce := none
            engine := { x.engine with
              jobs := x.engine.jobs ++
                [⟨.quiesce k, 2048, 0, false, x.engine.visit = .waitingForRecord || x.engine.visit = .leaving⟩]
              visit := if x.engine.visit = .idle then .waitingAtSet else x.engine.visit } })
      ∧ ((∃ i : RecIdx, x.records[i].phase ≠ .free) ∨ x.waitQueue ≠ [] → x.engineAct env = none))
  ∧ (∀ (sid : SliceId) (k : BitVec 8) (p : Nat) (ms : List CommandMsg) (s : State), s.resetPin = .released →
      s.mgmt.cmdPath[sid] = .sweepStart k :: ms →
      let x := s.slices[sid]
      x.dir = [] → (∀ i : RecIdx, x.records[i] = Record.free) → x.waitQueue = [] → x.submission = [] → x.engine = ⟨p, .idle, [], []⟩ →
      exec (.sweepStartNotice sid) s = .next ((s.afterCommand sid ms).updSlice sid fun x =>
        { x with
          pendingQuiesce := none
          engine := ⟨(p + 1) % 2048, .travelling, [⟨.quiesce k, 2047, 0, false, false⟩], []⟩ }))
  ∧ (∀ (sid : SliceId) (k : BitVec 8) (ks : List (BitVec 8)) (s : State), s.resetPin = .released →
      s.slices[sid].toController = k :: ks →
      let q := s.mgmt.quiesce
      let reported := q.reported ||| (1#4 <<< sid.val)
      let taken : State := s.updSlice sid fun x => { x with toController := ks }
      (q.state = .sweeping → k = q.number → reported ≠ 15#4 → exec (.quiesceCompletionReport sid) s
          = .next (taken.updMgmt fun m => { m with quiesce := { q with reported := reported } }))
      ∧ (q.state = .sweeping → k = q.number → reported = 15#4 → exec (.quiesceCompletionReport sid) s
          = .next (taken.updMgmt fun m =>
            { m with
              quiesce := { q with reported := reported, state := .quiesced, outcome := .completed }
              alerts := m.alerts ||| (1#19 <<< 16) }))
      ∧ (q.state ≠ .sweeping ∨ k ≠ q.number → exec (.quiesceCompletionReport sid) s = .next taken))

/-- A Scrub arrives: on an ABSENT, unheld line that no waiter names, with a FREE record, it starts and orders a full write of zeros without Poison
(R205, R206); on a SHARED or OWNED one it starts and revokes every agent of the entry, none of them fenced, and once its waits are settled it
orders that write and frees the entry, and reports completion when the write has been submitted (R205, R206); on a held line it waits if a place is free, and completes NO_RESOURCE if not (R32). -/
def Obligations.AScrubArrives : Prop :=
  (∀ (env : Env) (i : RecIdx) (w : WriteData) (x : Slice),
      let r := x.records[i]
      r.phase = .gather → r.finished = false → r.kind = .scrub → r.write = some w →
      (r.awaits = true → x.progress env i = none)
      ∧ (r.awaits = false → r.ordered = false →
        x.progress env i = some (((x.orders (.fullWrite r.line w.data) (.record i)).freeEntry env.sid r.line).updRec env i
          fun r => { r with ordered := true }))
      ∧ (r.awaits = false → r.ordered = true → x.noOps i = false → x.progress env i = none)
      ∧ (r.awaits = false → r.ordered = true → x.noOps i = true →
        x.progress env i = some (Slice.finish env i { x with toEngine := x.toEngine ++ [⟨.done, none⟩] })))
  ∧ (∀ (sid : SliceId) (n : Agent) (i : RecIdx) (line : LineAddr) (role : Role) (wd : WriteData) (w : WayIdx) (e : Entry)
      (ms : List SliceMsg) (s : State),
      s.resetPin = .released → s.links[n].toSlice[sid] = .reply (handleOf sid i) line .clean :: ms →
      let x := s.slices[sid]
      let r := x.records[i]
      x.still (s.env sid) → x.fenced.getLsbD n = false → r.phase = .gather → r.finished = false → r.kind = .scrub →
      r.ordered = false → r.write = some wd → r.line = line → r.victim = none → r.victimWaits = [] →
      r.waits = [⟨n, role, .revoke, .awaitingReply⟩] → x.holder line = some i → x.entryOf line = some (w, e) →
      exec (.replyClean sid n) s = .next ((s.afterSliceMsg sid n ms).updSlice sid fun x =>
        { (x.orders (.fullWrite line wd.data) (.record i)).withWayOut (setOf line) w .empty with
          records := x.records.set i
            { r with waits := [⟨n, role, .revoke, .settled .clean⟩], ordered := true, deadline := .stopped } }))
  ∧ ∀ (sid : SliceId) (l : LineAddr) (ms : List CommandMsg) (s : State), s.resetPin = .released →
    s.mgmt.cmdPath[sid] = .scrub l :: ms → s.slices[sid].still (s.env sid) →
    let x := s.slices[sid]
    let zeros : WriteData := ⟨⟨Vector.replicate 64 0#8, false⟩, BitVec.allOnes 64⟩
    ((∀ i : RecIdx, ¬x.records[i].holds l) → (∀ v ∈ x.waitQueue, v.line ≠ l) → (∃ i : RecIdx, x.records[i].phase = .free) →
      x.entryOf l = none →
      ∃ (i : RecIdx) (picks : Nat), x.records[i].phase = .free ∧
        exec (.scrubArrival sid) s = .next ((s.afterCommand sid ms).updSlice sid fun x =>
          { x.orders (.fullWrite l zeros.data) (.record i) with
            picks := picks
            records := x.records.set i { Record.started .management .scrub l (some zeros) false with ordered := true } }))
    ∧ (∀ w e (a : AgentSet), (∀ i : RecIdx, ¬x.records[i].holds l) → (∀ v ∈ x.waitQueue, v.line ≠ l) →
      (∃ i : RecIdx, x.records[i].phase = .free) → x.entryOf l = some (w, e) →
      e = .shared a ∨ (∃ b : Agent, e = .owned b ∧ a = 1#8 <<< b.val) → a ≠ 0#8 → (∀ m : Agent, a.getLsbD m = true → x.fenced.getLsbD m = false) →
      ∃ (i : RecIdx) (picks : Nat), x.records[i].phase = .free ∧
        exec (.scrubArrival sid) s = .next ((s.afterCommand sid ms).updSlice sid fun x =>
          { x.probes a ⟨.revoke, handleOf sid i, l⟩ with
            picks := picks
            records := x.records.set i
              { Record.started .management .scrub l (some zeros) false with
                waits := waitsOnAgents a e.role .revoke
                deadline := (s.env sid).deadlineFor a } }))
    ∧ ((∃ i : RecIdx, x.records[i].holds l) ∨ (∃ v ∈ x.waitQueue, v.line = l) ∨ (∀ i : RecIdx, x.records[i].phase ≠ .free) →
      (x.waitQueue.length < 48 →
        exec (.scrubArrival sid) s = .next ((s.afterCommand sid ms).updSlice sid fun x =>
          { x with waitQueue := x.waitQueue ++ [⟨.management, .scrub, l, some zeros⟩] }))
      ∧ (48 ≤ x.waitQueue.length →
        exec (.scrubArrival sid) s = .next ((s.afterCommand sid ms).updSlice sid fun x =>
          { x with toEngine := x.toEngine ++ [⟨.noResource, none⟩] })))

/-! ## The memory channel -/

/-- The submission arbiter: while the queue has a free place, the first slice after the last served with an operation waiting gives the front of its
list, and the event goes on at that slice; a full queue takes nothing (R173, R174). -/
def Obligations.TheQueueServesSlicesInTurn : Prop :=
  ∀ (sid : SliceId) (k : Fin 4) (o : Ordered) (os : List Ordered) (s : State), s.resetPin = .released →
    sid = s.mem.lastServed + 1 + k → (∀ j : Fin 4, j < k → s.slices[s.mem.lastServed + 1 + j].submission = []) →
    s.slices[sid].submission = o :: os →
    (s.mem.queue.length < 64 →
      exec .operationSubmitted s
        = .next ((s.updMem fun m => { m with queue := m.queue ++ [⟨o.op, sid⟩], lastServed := sid }).updSlice sid fun x =>
          Slice.goOn (s.env sid) false { x with submission := os }))
    ∧ (64 ≤ s.mem.queue.length → exec .operationSubmitted s = .next s)

/-- R176: what the check of a stored line gives the operation, and the repair and the reporting made in the same event.
R177: a read completes with the bytes and the Poison indication that the check gave, and changes the stored line no further than the repair. -/
def Obligations.AReadReturnsWhatTheCheckGave : Prop :=
  (∀ (l : LineAddr) (s : State), Memory.wf s.mem.dram = true →
      let d := s.mem.dram
      (d.check l .good = ⟨d.readLine l.toNat, d.marked l.toNat⟩ ∧ s.checkLine l .good = s)
      ∧ (d.check l .corrected = ⟨d.readLine l.toNat, d.marked l.toNat⟩
        ∧ s.checkLine l .corrected = s.updMem fun m => { m with corrected := satInc m.corrected })
      ∧ ∀ bytes, d.check l (.uncorrectable bytes) = ⟨bytes, true⟩
        ∧ ∃ e : Dram,
          s.checkLine l (.uncorrectable bytes) =
            { s with
              mem := { s.mem with
                dram := e
                uncorrectable := satInc s.mem.uncorrectable
                lastUncorrectable := some l }
              mgmt := { s.mgmt with alerts := s.mgmt.alerts ||| (1#19 <<< 18) } }
          ∧ e.readLine l.toNat = bytes ∧ e.marked l.toNat = true ∧ Memory.wf e = true
          ∧ (∀ a, a / 64 ≠ l.toNat → e.readByte a = d.readByte a) ∧ ∀ k, k ≠ l.toNat → e.marked k = d.marked k)
  ∧ (∀ (l : LineAddr) (h : Handle) (sid : SliceId) (pre post : List QueuedOp) (ecc : EccOutcome) (s : State),
      s.resetPin = .released → s.mem.dram.clearRunning = false → Memory.wf s.mem.dram = true →
      s.mem.queue = pre ++ ⟨.read l h, sid⟩ :: post → (∀ q ∈ pre, q.op.line ≠ l) →
      let d := s.mem.dram
      let taken : State := s.updMem fun m => { m with queue := pre ++ post }
      let completes (t : State) (c : Poisoned) : Prop :=
        exec (.read l ecc) s = .next (t.updMem fun m => { m with completions := m.completions ++ [⟨l, h, c⟩] })
      (ecc = .good → completes taken ⟨d.readLine l.toNat, d.marked l.toNat⟩)
      ∧ (ecc = .corrected →
        completes (taken.updMem fun m => { m with corrected := satInc m.corrected }) ⟨d.readLine l.toNat, d.marked l.toNat⟩)
      ∧ ∀ bytes, ecc = .uncorrectable bytes →
        ∃ e : Dram,
          completes
            { taken with
              mem := { taken.mem with
                dram := e
                uncorrectable := satInc s.mem.uncorrectable
                lastUncorrectable := some l }
              mgmt := { s.mgmt with alerts := s.mgmt.alerts ||| (1#19 <<< 18) } } ⟨bytes, true⟩
          ∧ e.readLine l.toNat = bytes ∧ e.marked l.toNat = true
          ∧ (∀ a, a / 64 ≠ l.toNat → e.readByte a = d.readByte a) ∧ ∀ k, k ≠ l.toNat → e.marked k = d.marked k)

/-- R178: a full write stores its 64 bytes, and its attribute sets or clears the poison mark whatever the line held; every other byte and mark, and
everything else, is unchanged. -/
def Obligations.AFullWriteStoresItsLine : Prop :=
  ∀ (l : LineAddr) (d : Poisoned) (sid : SliceId) (pre post : List QueuedOp) (s : State),
    s.resetPin = .released → s.mem.dram.clearRunning = false → Memory.wf s.mem.dram = true →
    s.mem.queue = pre ++ ⟨.fullWrite l d, sid⟩ :: post → (∀ q ∈ pre, q.op.line ≠ l) →
    ∃ e : Dram,
      exec (.fullWrite l) s = .next (s.updMem fun m => { m with queue := pre ++ post, dram := e })
      ∧ (∀ i : Fin 64, e.readByte (l.toNat * 64 + i.val) = d.bytes[i])
      ∧ (∀ a, a / 64 ≠ l.toNat → e.readByte a = s.mem.dram.readByte a)
      ∧ e.marked l.toNat = d.poison ∧ (∀ k, k ≠ l.toNat → e.marked k = s.mem.dram.marked k)
      ∧ Memory.wf e = true ∧ e.clearRunning = false

/-- R179: a merge write under a full mask reads nothing, stores its bytes and clears the mark; under a partial mask the selected bytes replace those
that the check gave, and the mark is set if the check saw Poison. Every other byte and mark is unchanged. -/
def Obligations.AMergeWriteMergesTheLine : Prop :=
  ∀ (l : LineAddr) (bytes : LineData) (mask : ByteMask) (sid : SliceId) (pre post : List QueuedOp) (ecc : EccOutcome) (s : State),
    s.resetPin = .released → s.mem.dram.clearRunning = false → Memory.wf s.mem.dram = true →
    s.mem.queue = pre ++ ⟨.mergeWrite l bytes mask, sid⟩ :: post → (∀ q ∈ pre, q.op.line ≠ l) →
    let seen := s.mem.dram.check l ecc
    ∃ t, exec (.mergeWrite l ecc) s = .next t ∧ t.mem.queue = pre ++ post
      ∧ t.links = s.links ∧ t.slices = s.slices ∧ t.mem.completions = s.mem.completions ∧ Memory.wf t.mem.dram = true
      ∧ (∀ a, a / 64 ≠ l.toNat → t.mem.dram.readByte a = s.mem.dram.readByte a)
      ∧ (∀ k, k ≠ l.toNat → t.mem.dram.marked k = s.mem.dram.marked k)
      ∧ (mask = BitVec.allOnes 64 →
        t.mem.dram.readLine l.toNat = bytes ∧ t.mem.dram.marked l.toNat = false ∧ t.mgmt = s.mgmt
          ∧ t.mem.corrected = s.mem.corrected ∧ t.mem.uncorrectable = s.mem.uncorrectable)
      ∧ (mask ≠ BitVec.allOnes 64 →
        (∀ i : Fin 64, t.mem.dram.readByte (l.toNat * 64 + i.val) = if mask.getLsbD i then bytes[i] else seen.bytes[i])
          ∧ t.mem.dram.marked l.toNat = seen.poison
          ∧ t.mem.corrected = (if ecc = .corrected then satInc s.mem.corrected else s.mem.corrected)
          ∧ (eccUncorrectable ecc = true →
            t.mem.uncorrectable = satInc s.mem.uncorrectable ∧ t.mem.lastUncorrectable = some l
              ∧ t.mgmt = { s.mgmt with alerts := s.mgmt.alerts ||| (1#19 <<< 18) })
          ∧ (eccUncorrectable ecc = false → t.mem.uncorrectable = s.mem.uncorrectable ∧ t.mgmt = s.mgmt))

/-- R180: a poison write keeps the bytes that the check gave and sets the mark; a line found uncorrectable is counted and reported as the check
gives. Every other byte and mark is unchanged. -/
def Obligations.APoisonWriteMarksTheLine : Prop :=
  ∀ (l : LineAddr) (sid : SliceId) (pre post : List QueuedOp) (ecc : EccOutcome) (s : State),
    s.resetPin = .released → s.mem.dram.clearRunning = false → Memory.wf s.mem.dram = true →
    s.mem.queue = pre ++ ⟨.poisonWrite l, sid⟩ :: post → (∀ q ∈ pre, q.op.line ≠ l) →
    ∃ t, exec (.poisonWrite l ecc) s = .next t ∧ t.mem.queue = pre ++ post
      ∧ t.links = s.links ∧ t.slices = s.slices ∧ t.mem.completions = s.mem.completions ∧ Memory.wf t.mem.dram = true
      ∧ t.mem.dram.readLine l.toNat = (s.mem.dram.check l ecc).bytes ∧ t.mem.dram.marked l.toNat = true
      ∧ (∀ a, a / 64 ≠ l.toNat → t.mem.dram.readByte a = s.mem.dram.readByte a)
      ∧ (∀ k, k ≠ l.toNat → t.mem.dram.marked k = s.mem.dram.marked k)
      ∧ t.mem.corrected = (if ecc = .corrected then satInc s.mem.corrected else s.mem.corrected)
      ∧ (eccUncorrectable ecc = true →
        t.mem.uncorrectable = satInc s.mem.uncorrectable ∧ t.mem.lastUncorrectable = some l
          ∧ t.mgmt = { s.mgmt with alerts := s.mgmt.alerts ||| (1#19 <<< 18) })
      ∧ (eccUncorrectable ecc = false → t.mem.uncorrectable = s.mem.uncorrectable ∧ t.mgmt = s.mgmt)

/-- The clear completes (R183): every line of the pool is 64 zero bytes without mark, the channel's own status is memory ready, and the completion is
reported to each link unit and to the management unit, whose memory-ready item, bit 16 of offset 0x1C, is set when it takes the report (R200;
log 28). Log 5: the completion may come at any time while the clear runs. -/
def Obligations.TheClearCompletes : Prop :=
  ∀ s : State, s.resetPin = .released →
    (s.mem.dram.clearRunning = true → s.clearStoresNothing →
      s.clearDone = false ∧ ∃ e : Dram,
        let t : State :=
          { s with
            links := s.links.map fun u => { u with clearReport := true }
            mem := { s.mem with dram := e }
            mgmt := { s.mgmt with clearReport := true } }
        exec .memoryClearComplete s = .next t ∧ t.clearDone = true
        ∧ e.clearRunning = false ∧ (∀ a, a / 64 < s.poolLines → e.readByte a = 0#8)
        ∧ ∀ k, k < s.poolLines → e.marked k = false)
    ∧ (s.mgmt.clearReport = true →
      let t : State := { s with mgmt := { s.mgmt with clearReport := false, memoryReady := true } }
      exec .memoryReady s = .next t ∧ (t.readRegister 0x1C).getLsbD 16 = true)

/-! ## Quiesce -/

/-- The quiesce controller takes a FlushDone: in FLUSHING an awaited agent leaves the flush-pending set, and with the last the controller enters
SWEEPING and sends the sweep start notices (R190); any other FlushDone is discarded with a discard notice, which its link unit counts
whatever its state (R153, R188); that the notice may pass other kinds of controller message that stand before it is the model's reading
(log 19).
A link-state report updates the management unit's copy and sets the agent's link-state change item; in FLUSHING a report of FENCED(SWEEPING) or
OFFLINE takes the agent out of the flush-pending set, the last one entering SWEEPING (R189, R190, R200, R207). -/
def Obligations.FlushDoneAndLinkStateReports : Prop :=
  (∀ (n : Agent) (s : State), s.resetPin = .released →
      (∀ k, s.links[n].flushDones = k + 1 →
        let q := s.mgmt.quiesce
        let left : BitVec 8 := q.flushPending &&& ~~~(1#8 <<< n.val)
        let taken : State := s.updLink n fun u => { u with flushDones := k }
        (q.state = .flushing → q.flushPending.getLsbD n = true → left ≠ 0#8 →
          exec (.quiesceFlushDone n) s
            = .next (taken.updMgmt fun m => { m with quiesce := { m.quiesce with flushPending := left } }))
        ∧ (q.state = .flushing → q.flushPending.getLsbD n = true → left = 0#8 →
          exec (.quiesceFlushDone n) s = .next (taken.updMgmt fun m =>
            { m with
              quiesce := { q with state := .sweeping, flushPending := 0#8, timer := none, reported := 0#4 }
              cmdPath := m.cmdPath.map (· ++ [.sweepStart q.number]) }))
        ∧ (q.state ≠ .flushing ∨ q.flushPending.getLsbD n = false →
          exec (.quiesceFlushDone n) s = .next (s.updLink n fun u =>
            { u with flushDones := k, fromController := u.fromController ++ [.discard] })))
      ∧ ∀ pre post : List ControllerMsg, s.links[n].fromController = pre ++ .discard :: post → .discard ∉ pre →
        exec (.discardNotice n) s
          = .next (s.updLink n fun u => { u with fromController := pre ++ post, discarded := satInc u.discarded }))
  ∧ (∀ (n : Agent) (r : LinkStatus) (rs : List LinkStatus) (s : State), s.resetPin = .released → s.links[n].reports = r :: rs →
      let q := s.mgmt.quiesce
      let left : BitVec 8 := q.flushPending &&& ~~~(1#8 <<< n.val)
      let copied (m : Mgmt) : Mgmt := { m with linkCopy := m.linkCopy.set n r, alerts := m.alerts ||| (1#19 <<< n.val) }
      let taken : State := s.updLink n fun u => { u with reports := rs }
      let leaves : Prop := q.state = .flushing ∧ q.flushPending.getLsbD n = true ∧ r.state ∈ [.fencedSweeping, .offline]
      (¬leaves → exec (.linkStateReport n) s = .next (taken.updMgmt copied))
      ∧ (leaves → left ≠ 0#8 → exec (.linkStateReport n) s
          = .next (taken.updMgmt fun m => { copied m with quiesce := { q with flushPending := left } }))
      ∧ (leaves → left = 0#8 → exec (.linkStateReport n) s = .next (taken.updMgmt fun m =>
          { copied m with
            quiesce := { q with state := .sweeping, flushPending := 0#8, timer := none, reported := 0#4 }
            cmdPath := m.cmdPath.map (· ++ [.sweepStart q.number]) })))

/-! ## The management port -/

/-- The four agent commands, taken in IDLE (R201) and decided by the link state in which LUn takes them (R202). `n` is bits 6:4 of the written value.
That the write and LUn's taking are one step is the model's reading (log 8). ReleaseFence leaves the fault record, the fault count and the
counters as they were (R168). -/
def Obligations.AgentCommandsAreDecidedAtTheLinkUnit : Prop :=
  ∀ (arg : BitVec 28) (n : Agent) (s : State), s.resetPin = .released → s.mgmt.running = false →
    n.val = arg.toNat % 8 →
    let taken (code : BitVec 4) : State := s.updMgmt (Mgmt.taken (arg ++ code))
    let answers (st : CommandStatus) (t : State) : State := t.updLink n fun u => { u with outcome := some st }
    (s.links[n].state = .online →
      exec (.detach arg) s = .next (answers .accepted ((taken 1).updLink n LinkUnit.startDrain)))
    ∧ (s.links[n].state ≠ .online → exec (.detach arg) s = .next (answers .notApplicable (taken 1)))
    ∧ (s.links[n].state ∈ [.online, .drainingSettling, .drainingSweeping] →
      exec (.fence arg) s = .next (answers .done ((taken 2).takeCause n ⟨.manual, none, none, none⟩)))
    ∧ (s.links[n].state ∈ [.offline, .fencedSweeping, .fencedSwept] →
      exec (.fence arg) s = .next (answers .notApplicable (taken 2)))
    ∧ (s.links[n].state = .fencedSwept →
      exec (.releaseFence arg) s = .next (answers .done ((taken 3).updLink n fun u =>
        { u with
          state := .offline
          cls := .unset
          reports := u.reports ++ [⟨.offline, .unset⟩]
          toSlice := u.toSlice.map (· ++ [.release]) })))
    ∧ (s.links[n].state ≠ .fencedSwept → exec (.releaseFence arg) s = .next (answers .notApplicable (taken 3)))
    ∧ exec (.clearFault arg) s = .next (answers .done ((taken 4).updLink n fun u =>
        { u with faultRecord := none, faultCount := 0, dataCheckFailures := 0, discarded := 0, retries := 0 }))

/-- The Quiesce command, taken in IDLE: in NORMAL it starts a quiesce over the CACHING agents that the management unit's copy shows ONLINE or DRAINING,
or enters SWEEPING at once where there is none, and completes ACCEPTED; otherwise NOT_APPLICABLE (R187, R203).
The Resume command, taken in IDLE: NOT_APPLICABLE in NORMAL; from QUIESCED to NORMAL (R193); from FLUSHING and SWEEPING the quiesce is aborted, with
withdrawal notices from SWEEPING, outcome ABORTED and the quiesce item (R194, R203).
That the write and the quiesce controller's taking are one step is the model's reading (log 8). -/
def Obligations.QuiesceAndResume : Prop :=
  (∀ (arg : BitVec 28) (asked : BitVec 8) (s : State), s.resetPin = .released → s.mgmt.running = false →
      (∀ n : Agent, asked.getLsbD n = true ↔
        (s.mgmt.linkCopy[n].state ∈ [.online, .drainingSettling, .drainingSweeping] ∧ s.mgmt.linkCopy[n].cls = .caching)) →
      let started (q : QuiesceController) (path : Vector (List CommandMsg) 4) (links : Vector LinkUnit 8) : Prop :=
        exec (.quiesce arg) s = .next
          { s with
            links := links
            mgmt := Mgmt.completed .accepted { Mgmt.taken (arg ++ 5#4) s.mgmt with quiesce := q, cmdPath := path } }
      (s.mgmt.quiesce.state = .normal → asked ≠ 0#8 →
        started ⟨.flushing, asked, some (s.now + 100 * s.mgmt.flushTimeout.toNat), s.mgmt.quiesce.number + 1#8, 0#4, .none⟩
          s.mgmt.cmdPath (Vector.ofFn fun n =>
            if asked.getLsbD n
            then { s.links[n] with fromController := s.links[n].fromController ++ [.flushRequest] } else s.links[n]))
      ∧ (s.mgmt.quiesce.state = .normal → asked = 0#8 →
        started ⟨.sweeping, 0#8, none, s.mgmt.quiesce.number + 1#8, 0#4, .none⟩
          (s.mgmt.cmdPath.map (· ++ [.sweepStart (s.mgmt.quiesce.number + 1#8)])) s.links)
      ∧ (s.mgmt.quiesce.state ≠ .normal →
        exec (.quiesce arg) s = .next (s.updMgmt fun m => Mgmt.completed .notApplicable (Mgmt.taken (arg ++ 5#4) m))))
  ∧ (∀ (arg : BitVec 28) (s : State), s.resetPin = .released → s.mgmt.running = false →
      let q := s.mgmt.quiesce
      let becomes (f : Mgmt → Mgmt) (st : CommandStatus) : Prop :=
        exec (.resume arg) s = .next (s.updMgmt fun m => Mgmt.completed st (f (Mgmt.taken (arg ++ 6#4) m)))
      let aborted (m : Mgmt) : Mgmt :=
        { m with
          quiesce := { q with state := .normal, flushPending := 0#8, timer := none, reported := 0#4, outcome := .aborted }
          alerts := m.alerts ||| (1#19 <<< 16) }
      (q.state = .normal → becomes id .notApplicable)
      ∧ (q.state = .quiesced → becomes (fun m => { m with quiesce := { q with state := .normal } }) .done)
      ∧ (q.state = .flushing → becomes aborted .done)
      ∧ (q.state = .sweeping →
        becomes (fun m => { aborted m with cmdPath := m.cmdPath.map (· ++ [.withdrawal]) }) .done))

/-- Inspect and Scrub, taken in IDLE: in range the command goes on the command path to the line's slice; out of range it completes ADDRESS in the event and
reaches no slice (R204, R205, R212).
A command write in RUNNING is refused with BUSY whatever its code; in IDLE an undefined code is taken and completes NOT_APPLICABLE in the same event
(R201, R212).
The engine takes the outcome of the command in progress, from a link unit or from a slice: the status becomes the outcome, a result is stored where there
is one, the engine is IDLE and the command completion item is set (R201). -/
def Obligations.TheCommandEngineCompletes : Prop :=
  (∀ (line : LineAddr) (s : State), s.resetPin = .released → s.mgmt.running = false →
      let sent (x : CommandMsg) (m : Mgmt) : Mgmt :=
        { m with cmdPath := m.cmdPath.set (sliceOf line) (m.cmdPath[sliceOf line] ++ [x]) }
      (line.toNat < s.poolLines →
        exec (.inspect line) s = .next (s.updMgmt fun m => sent (.inspect line) (Mgmt.taken (line ++ 7#4) m))
        ∧ exec (.scrub line) s = .next (s.updMgmt fun m => sent (.scrub line) (Mgmt.taken (line ++ 8#4) m)))
      ∧ (s.poolLines ≤ line.toNat →
        exec (.inspect line) s = .next (s.updMgmt fun m => Mgmt.completed .address (Mgmt.taken (line ++ 7#4) m))
        ∧ exec (.scrub line) s = .next (s.updMgmt fun m => Mgmt.completed .address (Mgmt.taken (line ++ 8#4) m))))
  ∧ (∀ (arg : BitVec 28) (s : State), s.resetPin = .released →
      (s.mgmt.running = true →
        ∀ c : Instr, (c ∈ [Instr.detach arg, .fence arg, .releaseFence arg, .clearFault arg, .quiesce arg, .resume arg, .inspect arg, .scrub arg]
            ∨ ∃ code : BitVec 4, (code = 0#4 ∨ 9 ≤ code.toNat) ∧ c = .undefinedCommandCode code arg) →
        exec c s = .next (s.updMgmt fun m => { m with offset := 0x10#8, status := .busy }))
      ∧ ∀ code : BitVec 4, code = 0#4 ∨ 9 ≤ code.toNat → s.mgmt.running = false →
        exec (.undefinedCommandCode code arg) s
          = .next (s.updMgmt fun m => Mgmt.completed .notApplicable (Mgmt.taken (arg ++ code) m)))
  ∧ (∀ s : State, s.resetPin = .released →
      (∀ (n : Agent) (st : CommandStatus), s.links[n].outcome = some st → (∀ m : Agent, m < n → s.links[m].outcome = none) →
        exec .commandOutcome s
          = .next ((s.updLink n fun u => { u with outcome := none }).updMgmt (Mgmt.completed st)))
      ∧ ∀ (sid : SliceId) (o : CommandOutcome) (os : List CommandOutcome), s.slices[sid].toEngine = o :: os →
        (∀ n : Agent, s.links[n].outcome = none) → (∀ k : SliceId, k < sid → s.slices[k].toEngine = []) →
        exec .commandOutcome s = .next ((s.updSlice sid fun x => { x with toEngine := os }).updMgmt fun m =>
          { Mgmt.completed o.status m with result := if o.result = none then m.result else o.result }))

/-- Register writes: a configuration write takes the listed fields, and a timeout of 0 leaves its timeout as it was (R199, R212); a write of ones to the alert
status clears those items (R198, R207).
The transfers without an effect but on the offset pointer: an offset write, a short write of one to three bytes, and a register write to a status, fault
record, counter or unimplemented offset (R197, R198).
The target's address is 0x4C plus the sampled ADDR1:0, and it acknowledges nothing else and nothing in a reset; of a write transfer it acknowledges
the address, the offset and four data bytes, and further bytes have no effect; a read transfer returns the register at the offset
pointer, least significant byte first, and 0x00 after the fourth byte (R197).
What a register write is, by its offset (R198, 12.4): at 0x04 and 0x08 a configuration write, at 0x0C an alert status write, at 0x10 the command
whose code bits 3:0 give, 1 to 8 in the order of 12.4 with bits 31:4 as its argument, and 0 or 9 to 15 undefined (R212); at any other offset
it has no effect.
ALERT_N is driven low exactly while an item is set whose mask flag is unmasked (R207). -/
def Obligations.RegisterWritesTakeTheirFields : Prop :=
  (∀ (v : BitVec 32) (s : State), s.resetPin = .released →
      exec (.configurationWrite 0x04 v) s = .next (s.updMgmt fun m =>
        { m with
          offset := 0x04
          agentEnable := v.extractLsb' 0 8
          exclusive := v.getLsbD 8
          responseTimeout := if v.extractLsb' 16 8 = 0#8 then m.responseTimeout else v.extractLsb' 16 8
          flushTimeout := if v.extractLsb' 24 8 = 0#8 then m.flushTimeout else v.extractLsb' 24 8 })
      ∧ exec (.configurationWrite 0x08 v) s
        = .next (s.updMgmt fun m => { m with offset := 0x08, alertMask := v.extractLsb' 0 19 })
      ∧ exec (.alertStatusWrite v) s
        = .next (s.updMgmt fun m => { m with offset := 0x0C, alerts := m.alerts &&& ~~~(v.extractLsb' 0 19) }))
  ∧ (∀ (off : BitVec 8) (s : State), s.resetPin = .released →
      let moved : State := s.updMgmt fun m => { m with offset := off }
      exec (.offsetWrite off) s = .next moved
      ∧ (∀ data : List Byte, data.length ∈ [1, 2, 3] → exec (.shortWrite off data) s = .next moved)
      ∧ ∀ v : BitVec 32, off ∉ [0x04#8, 0x08#8, 0x0C#8, 0x10#8] → exec (.registerWriteNoEffect off v) s = .next moved)
  ∧ (∀ (a : BitVec 7) (s : State),
      let ours : Prop := s.resetPin = .released ∧ a = 0x4C#7 + s.addr.setWidth 7
      (∀ k : Nat, (¬ours → s.writeAcknowledges a k = List.replicate (k + 1) false)
        ∧ (ours → s.writeAcknowledges a k = List.replicate (min (k + 1) 6) true ++ List.replicate (k - 5) false))
      ∧ (∀ bs, ¬ours → s.writeTransferTo a bs = none)
      ∧ (∀ off b0 b1 b2 b3 more, ours →
        s.writeTransferTo a (off :: b0 :: b1 :: b2 :: b3 :: more) = some (registerWrite off (b3 ++ b2 ++ b1 ++ b0)))
      ∧ (∀ off, ours → s.writeTransferTo a [off] = some (.offsetWrite off))
      ∧ (∀ off data, ours → data.length ∈ [1, 2, 3] → s.writeTransferTo a (off :: data) = some (.shortWrite off data))
      ∧ ∀ k : Nat, (s.readTransfer k).length = k
        ∧ (∀ j, j < k → j < 4 →
          (s.readTransfer k)[j]? = some ((s.readRegister s.mgmt.offset).extractLsb' (8 * j) 8))
        ∧ ∀ j, j < k → 4 ≤ j → (s.readTransfer k)[j]? = some 0#8)
  ∧ ((∀ v : BitVec 32, registerWrite 0x04 v = .configurationWrite 0x04 v ∧ registerWrite 0x08 v = .configurationWrite 0x08 v
        ∧ registerWrite 0x0C v = .alertStatusWrite v
        ∧ ∀ off : BitVec 8, off ∉ [0x04#8, 0x08#8, 0x0C#8, 0x10#8] → registerWrite off v = .registerWriteNoEffect off v)
    ∧ ∀ arg : BitVec 28,
      registerWrite 0x10 (arg ++ 1#4) = .detach arg ∧ registerWrite 0x10 (arg ++ 2#4) = .fence arg
      ∧ registerWrite 0x10 (arg ++ 3#4) = .releaseFence arg ∧ registerWrite 0x10 (arg ++ 4#4) = .clearFault arg
      ∧ registerWrite 0x10 (arg ++ 5#4) = .quiesce arg ∧ registerWrite 0x10 (arg ++ 6#4) = .resume arg
      ∧ registerWrite 0x10 (arg ++ 7#4) = .inspect arg ∧ registerWrite 0x10 (arg ++ 8#4) = .scrub arg
      ∧ ∀ code : BitVec 4, code = 0#4 ∨ 9 ≤ code.toNat → registerWrite 0x10 (arg ++ code) = .undefinedCommandCode code arg)
  ∧ (∀ s : State, s.alertLow = true ↔ ∃ k : Fin 19, s.mgmt.alerts.getLsbD k = true ∧ s.mgmt.alertMask.getLsbD k = false)

/-! ## Resets -/

/-- Both resets, as every block takes them (R21, R43, R129, R154, R170, R185, R186, R196, R208, R209); where both apply the part stays in power-on reset.
Log 4: the model's counter of choices goes on. Log 10: what waits in a request channel is taken at the reset, and at a hard reset it is counted as
discarded (R132).
The releases sample the straps and let the part run (R1, R197, R208); a clear that has already come to the end of the pool size then in force completes
at the release of a hard reset, and none completes while it is applied (R184; log 21).
While a reset is applied nothing but the resets and their releases happens (R208; log 13), except that a message received from an agent before a hard
reset is taken, discarded and counted (R132, log 10). -/
def Obligations.ResetsAndReleases : Prop :=
  let link : LinkUnit :=
    { state := .offline
      cls := .unset
      heldHello := none
      tags := Vector.replicate 16 false
      confirm := []
      reservations := 0
      slicesReported := 0#4
      consecutive := 0
      dataCheckFailures := 0#16
      discarded := 0#16
      retries := 0#16
      faultRecord := none
      faultCount := 0#8
      responses := []
      probes := []
      requestChannel := []
      toSlice := Vector.replicate 4 []
      notices := Vector.replicate 4 []
      reports := []
      flushDones := 0
      fromController := []
      clearReport := false
      outcome := none }
  let slice (x : Slice) : Slice :=
    { dir := []
      records := Vector.replicate 32 Record.free
      waitQueue := []
      fenced := 0#8
      draining := 0#8
      engine := ⟨0, .idle, [], []⟩
      pendingQuiesce := none
      submission := []
      toLink := Vector.replicate 8 []
      toController := []
      toEngine := []
      picks := x.picks }
  let mgmt : Mgmt :=
    { offset := 0x00#8
      agentEnable := 0xFF#8
      exclusive := true
      responseTimeout := 20#8
      flushTimeout := 20#8
      alertMask := 0#19
      alerts := 0#19
      linkCopy := Vector.replicate 8 ⟨.offline, .unset⟩
      memoryReady := false
      clearReport := false
      running := false
      command := 0#32
      status := .none
      result := none
      quiesce := ⟨.normal, 0#8, none, 0#8, 0#4, .none⟩
      cmdPath := Vector.replicate 4 [] }
  let fromLink (n : Agent) (c : Instr) : Prop :=
    (∃ m : ReqMsg, c = m.command n) ∨ (∃ h l, c = .gone n h l ∨ c = .clean n h l) ∨ (∃ m, c = .dirty n m) ∨ (∃ h, c = .grantAck n h)
      ∨ ∃ x, c = .messageFailingFormTest n (.arriving x)
  let counted (n : Agent) (s : State) : State := s.updLink n fun u => { u with discarded := satInc u.discarded }
  Record.free.phase = .free
  ∧ (∀ s : State,
      (∃ d : Dram, d.clearRunning = true ∧ d.clearPosition = 0 ∧
        exec .powerOnReset s = .next
          { s with
            links := Vector.replicate 8 link
            slices := s.slices.map slice
            mem := ⟨[], 3, d, 0#16, 0#16, none, []⟩
            mgmt := mgmt
            resetPin := .powerOn })
      ∧ (s.resetPin ≠ .powerOn →
        exec .hardReset s = .next
          { s with
            links := s.links.map fun u =>
              { link with
                dataCheckFailures := u.dataCheckFailures
                discarded := BitVec.ofNat 16 (min (u.discarded.toNat + u.requestChannel.length) 65535)
                retries := u.retries
                faultRecord := u.faultRecord
                faultCount := u.faultCount }
            slices := s.slices.map slice
            mem := { s.mem with queue := [], lastServed := 3, completions := [] }
            mgmt := { mgmt with alerts := s.mgmt.alerts &&& 0x4FF00#19, memoryReady := !s.mem.dram.clearRunning }
            resetPin := .hard })
      ∧ (s.resetPin = .powerOn → exec .hardReset s = .next s))
  ∧ (∀ (msize : Bool) (addr : BitVec 2) (s : State),
      let released : State := { s with resetPin := .released, msize := msize, addr := addr }
      (s.resetPin = .powerOn → exec (.powerOnResetRelease msize addr) s = .next released)
      ∧ (s.resetPin = .hard → s.mem.dram.clearRunning = false ∨ s.mem.dram.clearPosition < (if msize then 2 ^ 28 else 2 ^ 27) →
        exec (.hardResetRelease msize addr) s = .next released)
      ∧ (s.resetPin = .hard → s.mem.dram.clearRunning = true → (if msize then 2 ^ 28 else 2 ^ 27) ≤ s.mem.dram.clearPosition →
        exec (.hardResetRelease msize addr) s = .next released.completeClear))
  ∧ (∀ (n : Agent) (c : Instr) (s : State), s.resetPin = .hard → fromLink n c → c.wf = true → exec c s = .next (counted n s))
  ∧ (∀ (c : Instr) (s t : State), s.resetPin ≠ .released → exec c s = .next t →
      t = s ∨ c = .powerOnReset ∨ c = .hardReset ∨ (∃ m a, c = .powerOnResetRelease m a) ∨ (∃ m a, c = .hardResetRelease m a)
        ∨ ∃ n, s.resetPin = .hard ∧ fromLink n c ∧ t = counted n s)

/-! ## Frames and invariants -/

/-- Only the four performing commands, the clear's completion, a power-on reset and the release of a hard reset touch the DRAM: every other command leaves every
byte and every poison mark as it was. -/
def Obligations.OtherCommandsLeaveTheDram : Prop :=
  ∀ (c : Instr) (s t : State), exec c s = .next t →
    (∀ l e, c ≠ .read l e) → (∀ l, c ≠ .fullWrite l) → (∀ l e, c ≠ .mergeWrite l e) → (∀ l e, c ≠ .poisonWrite l e) →
    c ≠ .memoryClearComplete → c ≠ .powerOnReset → (∀ m a, c ≠ .hardResetRelease m a) →
    t.mem.dram = s.mem.dram

/-- Log 11: the DRAM's data keep their canonical form.
While the clear runs nothing is stored that it has not cleared (R183; log 11). -/
def Obligations.StepsKeepTheMemoryCanonical : Prop :=
  (∀ s t : State, s.memoryCanonical → step s = .next t → t.memoryCanonical)
  ∧ (∀ s t : State, s.clearStoresNothing → step s = .next t → t.clearStoresNothing)

/-- The manual's bounds are kept: 16 tag places (R136), the consecutive-failure count (R145), the confirm set (R141), the reply-retry list (R146), 48 waiters (R31), 2048 sets (R117), 64
places of the memory request queue (R174), timeouts of at least 1 (R199). Nothing waits in the request channel of a FENCED link: the fence event discards it (R132), which is
the model's choice of the moment (log 10). -/
def Obligations.StepsKeepTheBounds : Prop :=
  ∀ s t : State, s.bounded → step s = .next t → t.bounded

/-- At most one transaction record holds any one line at a time, whether as its request line or as its victim line (R29).
A FREE record has no operation in its slice's submission list: no record ends while one that it ordered is there (R173). -/
def Obligations.StepsKeepSoleHolders : Prop :=
  (∀ s t : State, s.soleHolders → step s = .next t → t.soleHolders)
  ∧ (∀ s t : State, s.freeRecordsIdle → step s = .next t → t.freeRecordsIdle)

/-- Every line stands at the slice that the address function gives it, in the slices and on the paths to them (R3, R131).
While that holds and no two records of a slice hold one line (R29), every step keeps every slice's directory as the manual says: a way for each line
at most (R7), a recency order that lists exactly the OCCUPIED ways (R13), a RESERVED way only for the request line of a record in use whose
handle it carries (R8), sharer sets that are not empty (R6), and a victim that keeps its request line without a way until its entry is freed
(R112, R114). -/
def Obligations.StepsKeepTheDirectory : Prop :=
  (∀ s t : State, s.linesAtHome → step s = .next t → t.linesAtHome)
  ∧ (∀ s t : State, s.soleHolders → s.linesAtHome → s.directoryConsistent → step s = .next t → t.directoryConsistent)

/-- The invariants hold right after a power-on reset has been released. -/
def Obligations.InvariantsHoldAtReset : Prop :=
  State.reset.memoryCanonical ∧ State.reset.bounded ∧ State.reset.soleHolders ∧ State.reset.freeRecordsIdle
    ∧ State.reset.clearStoresNothing ∧ State.reset.linesAtHome ∧ State.reset.directoryConsistent
end

