-- ==== Sys2Proof/Laws/State.lean ====
section
/-!
SUPPORT. What each update of the state changes and what it leaves, field by field; every lemma is true by unfolding. Proofs cite
these and never unfold a record update.
-/

namespace Sys2Proof.Machine

/-! ## updLink changes the link units -/

@[simp] theorem State.updLink_links (s : State) (n : Agent) (f : LinkUnit → LinkUnit) : (s.updLink n f).links = s.links.set n (f s.links[n]) := rfl

@[simp] theorem State.updLink_slices (s : State) (n : Agent) (f : LinkUnit → LinkUnit) : (s.updLink n f).slices = s.slices := rfl

@[simp] theorem State.updLink_mem (s : State) (n : Agent) (f : LinkUnit → LinkUnit) : (s.updLink n f).mem = s.mem := rfl

@[simp] theorem State.updLink_mgmt (s : State) (n : Agent) (f : LinkUnit → LinkUnit) : (s.updLink n f).mgmt = s.mgmt := rfl

@[simp] theorem State.updLink_resetPin (s : State) (n : Agent) (f : LinkUnit → LinkUnit) : (s.updLink n f).resetPin = s.resetPin := rfl

@[simp] theorem State.updLink_msize (s : State) (n : Agent) (f : LinkUnit → LinkUnit) : (s.updLink n f).msize = s.msize := rfl

@[simp] theorem State.updLink_addr (s : State) (n : Agent) (f : LinkUnit → LinkUnit) : (s.updLink n f).addr = s.addr := rfl

@[simp] theorem State.updLink_now (s : State) (n : Agent) (f : LinkUnit → LinkUnit) : (s.updLink n f).now = s.now := rfl

@[simp] theorem State.updLink_pending (s : State) (n : Agent) (f : LinkUnit → LinkUnit) : (s.updLink n f).pending = s.pending := rfl

/-! ## updSlice changes the slices -/

@[simp] theorem State.updSlice_links (s : State) (sid : SliceId) (f : Slice → Slice) : (s.updSlice sid f).links = s.links := rfl

@[simp] theorem State.updSlice_slices (s : State) (sid : SliceId) (f : Slice → Slice) : (s.updSlice sid f).slices = s.slices.set sid (f s.slices[sid]) := rfl

@[simp] theorem State.updSlice_mem (s : State) (sid : SliceId) (f : Slice → Slice) : (s.updSlice sid f).mem = s.mem := rfl

@[simp] theorem State.updSlice_mgmt (s : State) (sid : SliceId) (f : Slice → Slice) : (s.updSlice sid f).mgmt = s.mgmt := rfl

@[simp] theorem State.updSlice_resetPin (s : State) (sid : SliceId) (f : Slice → Slice) : (s.updSlice sid f).resetPin = s.resetPin := rfl

@[simp] theorem State.updSlice_msize (s : State) (sid : SliceId) (f : Slice → Slice) : (s.updSlice sid f).msize = s.msize := rfl

@[simp] theorem State.updSlice_addr (s : State) (sid : SliceId) (f : Slice → Slice) : (s.updSlice sid f).addr = s.addr := rfl

@[simp] theorem State.updSlice_now (s : State) (sid : SliceId) (f : Slice → Slice) : (s.updSlice sid f).now = s.now := rfl

@[simp] theorem State.updSlice_pending (s : State) (sid : SliceId) (f : Slice → Slice) : (s.updSlice sid f).pending = s.pending := rfl

/-! ## updMgmt changes the management unit -/

@[simp] theorem State.updMgmt_links (s : State) (f : Mgmt → Mgmt) : (s.updMgmt f).links = s.links := rfl

@[simp] theorem State.updMgmt_slices (s : State) (f : Mgmt → Mgmt) : (s.updMgmt f).slices = s.slices := rfl

@[simp] theorem State.updMgmt_mem (s : State) (f : Mgmt → Mgmt) : (s.updMgmt f).mem = s.mem := rfl

@[simp] theorem State.updMgmt_mgmt (s : State) (f : Mgmt → Mgmt) : (s.updMgmt f).mgmt = f s.mgmt := rfl

@[simp] theorem State.updMgmt_resetPin (s : State) (f : Mgmt → Mgmt) : (s.updMgmt f).resetPin = s.resetPin := rfl

@[simp] theorem State.updMgmt_msize (s : State) (f : Mgmt → Mgmt) : (s.updMgmt f).msize = s.msize := rfl

@[simp] theorem State.updMgmt_addr (s : State) (f : Mgmt → Mgmt) : (s.updMgmt f).addr = s.addr := rfl

@[simp] theorem State.updMgmt_now (s : State) (f : Mgmt → Mgmt) : (s.updMgmt f).now = s.now := rfl

@[simp] theorem State.updMgmt_pending (s : State) (f : Mgmt → Mgmt) : (s.updMgmt f).pending = s.pending := rfl

/-! ## updMem changes the memory channel -/

@[simp] theorem State.updMem_links (s : State) (f : MemChannel → MemChannel) : (s.updMem f).links = s.links := rfl

@[simp] theorem State.updMem_slices (s : State) (f : MemChannel → MemChannel) : (s.updMem f).slices = s.slices := rfl

@[simp] theorem State.updMem_mem (s : State) (f : MemChannel → MemChannel) : (s.updMem f).mem = f s.mem := rfl

@[simp] theorem State.updMem_mgmt (s : State) (f : MemChannel → MemChannel) : (s.updMem f).mgmt = s.mgmt := rfl

@[simp] theorem State.updMem_resetPin (s : State) (f : MemChannel → MemChannel) : (s.updMem f).resetPin = s.resetPin := rfl

@[simp] theorem State.updMem_msize (s : State) (f : MemChannel → MemChannel) : (s.updMem f).msize = s.msize := rfl

@[simp] theorem State.updMem_addr (s : State) (f : MemChannel → MemChannel) : (s.updMem f).addr = s.addr := rfl

@[simp] theorem State.updMem_now (s : State) (f : MemChannel → MemChannel) : (s.updMem f).now = s.now := rfl

@[simp] theorem State.updMem_pending (s : State) (f : MemChannel → MemChannel) : (s.updMem f).pending = s.pending := rfl

/-! ## raiseAlert, setOffset and completeCommand change the management unit -/

@[simp] theorem State.raiseAlert_links (s : State) (item : BitVec 19) : (s.raiseAlert item).links = s.links := rfl

@[simp] theorem State.raiseAlert_slices (s : State) (item : BitVec 19) : (s.raiseAlert item).slices = s.slices := rfl

@[simp] theorem State.raiseAlert_mem (s : State) (item : BitVec 19) : (s.raiseAlert item).mem = s.mem := rfl

@[simp] theorem State.raiseAlert_mgmt (s : State) (item : BitVec 19) : (s.raiseAlert item).mgmt = { s.mgmt with alerts := s.mgmt.alerts ||| item } := rfl

@[simp] theorem State.raiseAlert_resetPin (s : State) (item : BitVec 19) : (s.raiseAlert item).resetPin = s.resetPin := rfl

@[simp] theorem State.raiseAlert_msize (s : State) (item : BitVec 19) : (s.raiseAlert item).msize = s.msize := rfl

@[simp] theorem State.raiseAlert_addr (s : State) (item : BitVec 19) : (s.raiseAlert item).addr = s.addr := rfl

@[simp] theorem State.raiseAlert_now (s : State) (item : BitVec 19) : (s.raiseAlert item).now = s.now := rfl

@[simp] theorem State.raiseAlert_pending (s : State) (item : BitVec 19) : (s.raiseAlert item).pending = s.pending := rfl

@[simp] theorem State.setOffset_links (s : State) (off : BitVec 8) : (s.setOffset off).links = s.links := rfl

@[simp] theorem State.setOffset_slices (s : State) (off : BitVec 8) : (s.setOffset off).slices = s.slices := rfl

@[simp] theorem State.setOffset_mem (s : State) (off : BitVec 8) : (s.setOffset off).mem = s.mem := rfl

@[simp] theorem State.setOffset_mgmt (s : State) (off : BitVec 8) : (s.setOffset off).mgmt = { s.mgmt with offset := off } := rfl

@[simp] theorem State.setOffset_resetPin (s : State) (off : BitVec 8) : (s.setOffset off).resetPin = s.resetPin := rfl

@[simp] theorem State.setOffset_msize (s : State) (off : BitVec 8) : (s.setOffset off).msize = s.msize := rfl

@[simp] theorem State.setOffset_addr (s : State) (off : BitVec 8) : (s.setOffset off).addr = s.addr := rfl

@[simp] theorem State.setOffset_now (s : State) (off : BitVec 8) : (s.setOffset off).now = s.now := rfl

@[simp] theorem State.setOffset_pending (s : State) (off : BitVec 8) : (s.setOffset off).pending = s.pending := rfl

@[simp] theorem State.completeCommand_links (s : State) (st : CommandStatus) (r : Option InspectResult) :
    (s.completeCommand st r).links = s.links := rfl

@[simp] theorem State.completeCommand_slices (s : State) (st : CommandStatus) (r : Option InspectResult) :
    (s.completeCommand st r).slices = s.slices := rfl

@[simp] theorem State.completeCommand_mem (s : State) (st : CommandStatus) (r : Option InspectResult) :
    (s.completeCommand st r).mem = s.mem := rfl

@[simp] theorem State.completeCommand_resetPin (s : State) (st : CommandStatus) (r : Option InspectResult) :
    (s.completeCommand st r).resetPin = s.resetPin := rfl

@[simp] theorem State.completeCommand_msize (s : State) (st : CommandStatus) (r : Option InspectResult) :
    (s.completeCommand st r).msize = s.msize := rfl

@[simp] theorem State.completeCommand_addr (s : State) (st : CommandStatus) (r : Option InspectResult) :
    (s.completeCommand st r).addr = s.addr := rfl

@[simp] theorem State.completeCommand_now (s : State) (st : CommandStatus) (r : Option InspectResult) :
    (s.completeCommand st r).now = s.now := rfl

@[simp] theorem State.completeCommand_pending (s : State) (st : CommandStatus) (r : Option InspectResult) :
    (s.completeCommand st r).pending = s.pending := rfl

/-! ## The small updates of a link unit -/

@[simp] theorem LinkUnit.push_state (m : Outbound) (u : LinkUnit) : (LinkUnit.push m u).state = u.state := rfl

@[simp] theorem LinkUnit.push_cls (m : Outbound) (u : LinkUnit) : (LinkUnit.push m u).cls = u.cls := rfl

@[simp] theorem LinkUnit.push_heldHello (m : Outbound) (u : LinkUnit) : (LinkUnit.push m u).heldHello = u.heldHello := rfl

@[simp] theorem LinkUnit.push_tags (m : Outbound) (u : LinkUnit) : (LinkUnit.push m u).tags = u.tags := rfl

@[simp] theorem LinkUnit.push_confirm (m : Outbound) (u : LinkUnit) : (LinkUnit.push m u).confirm = u.confirm := rfl

@[simp] theorem LinkUnit.push_reservations (m : Outbound) (u : LinkUnit) : (LinkUnit.push m u).reservations = u.reservations := rfl

@[simp] theorem LinkUnit.push_slicesReported (m : Outbound) (u : LinkUnit) : (LinkUnit.push m u).slicesReported = u.slicesReported := rfl

@[simp] theorem LinkUnit.push_consecutive (m : Outbound) (u : LinkUnit) : (LinkUnit.push m u).consecutive = u.consecutive := rfl

@[simp] theorem LinkUnit.push_dataCheckFailures (m : Outbound) (u : LinkUnit) : (LinkUnit.push m u).dataCheckFailures = u.dataCheckFailures := rfl

@[simp] theorem LinkUnit.push_discarded (m : Outbound) (u : LinkUnit) : (LinkUnit.push m u).discarded = u.discarded := rfl

@[simp] theorem LinkUnit.push_retries (m : Outbound) (u : LinkUnit) : (LinkUnit.push m u).retries = u.retries := rfl

@[simp] theorem LinkUnit.push_faultRecord (m : Outbound) (u : LinkUnit) : (LinkUnit.push m u).faultRecord = u.faultRecord := rfl

@[simp] theorem LinkUnit.push_faultCount (m : Outbound) (u : LinkUnit) : (LinkUnit.push m u).faultCount = u.faultCount := rfl

@[simp] theorem LinkUnit.push_responses (m : Outbound) (u : LinkUnit) : (LinkUnit.push m u).responses = u.responses ++ [m] := rfl

@[simp] theorem LinkUnit.push_probes (m : Outbound) (u : LinkUnit) : (LinkUnit.push m u).probes = u.probes := rfl

@[simp] theorem LinkUnit.push_requestChannel (m : Outbound) (u : LinkUnit) : (LinkUnit.push m u).requestChannel = u.requestChannel := rfl

@[simp] theorem LinkUnit.push_toSlice (m : Outbound) (u : LinkUnit) : (LinkUnit.push m u).toSlice = u.toSlice := rfl

@[simp] theorem LinkUnit.push_notices (m : Outbound) (u : LinkUnit) : (LinkUnit.push m u).notices = u.notices := rfl

@[simp] theorem LinkUnit.push_reports (m : Outbound) (u : LinkUnit) : (LinkUnit.push m u).reports = u.reports := rfl

@[simp] theorem LinkUnit.push_flushDones (m : Outbound) (u : LinkUnit) : (LinkUnit.push m u).flushDones = u.flushDones := rfl

@[simp] theorem LinkUnit.push_fromController (m : Outbound) (u : LinkUnit) : (LinkUnit.push m u).fromController = u.fromController := rfl

@[simp] theorem LinkUnit.push_clearReport (m : Outbound) (u : LinkUnit) : (LinkUnit.push m u).clearReport = u.clearReport := rfl

@[simp] theorem LinkUnit.push_outcome (m : Outbound) (u : LinkUnit) : (LinkUnit.push m u).outcome = u.outcome := rfl

@[simp] theorem LinkUnit.setTag_state (t : Tag) (b : Bool) (u : LinkUnit) : (LinkUnit.setTag t b u).state = u.state := rfl

@[simp] theorem LinkUnit.setTag_cls (t : Tag) (b : Bool) (u : LinkUnit) : (LinkUnit.setTag t b u).cls = u.cls := rfl

@[simp] theorem LinkUnit.setTag_heldHello (t : Tag) (b : Bool) (u : LinkUnit) : (LinkUnit.setTag t b u).heldHello = u.heldHello := rfl

@[simp] theorem LinkUnit.setTag_tags (t : Tag) (b : Bool) (u : LinkUnit) : (LinkUnit.setTag t b u).tags = u.tags.set t b := rfl

@[simp] theorem LinkUnit.setTag_confirm (t : Tag) (b : Bool) (u : LinkUnit) : (LinkUnit.setTag t b u).confirm = u.confirm := rfl

@[simp] theorem LinkUnit.setTag_reservations (t : Tag) (b : Bool) (u : LinkUnit) : (LinkUnit.setTag t b u).reservations = u.reservations := rfl

@[simp] theorem LinkUnit.setTag_slicesReported (t : Tag) (b : Bool) (u : LinkUnit) : (LinkUnit.setTag t b u).slicesReported = u.slicesReported := rfl

@[simp] theorem LinkUnit.setTag_consecutive (t : Tag) (b : Bool) (u : LinkUnit) : (LinkUnit.setTag t b u).consecutive = u.consecutive := rfl

@[simp] theorem LinkUnit.setTag_dataCheckFailures (t : Tag) (b : Bool) (u : LinkUnit) : (LinkUnit.setTag t b u).dataCheckFailures = u.dataCheckFailures := rfl

@[simp] theorem LinkUnit.setTag_discarded (t : Tag) (b : Bool) (u : LinkUnit) : (LinkUnit.setTag t b u).discarded = u.discarded := rfl

@[simp] theorem LinkUnit.setTag_retries (t : Tag) (b : Bool) (u : LinkUnit) : (LinkUnit.setTag t b u).retries = u.retries := rfl

@[simp] theorem LinkUnit.setTag_faultRecord (t : Tag) (b : Bool) (u : LinkUnit) : (LinkUnit.setTag t b u).faultRecord = u.faultRecord := rfl

@[simp] theorem LinkUnit.setTag_faultCount (t : Tag) (b : Bool) (u : LinkUnit) : (LinkUnit.setTag t b u).faultCount = u.faultCount := rfl

@[simp] theorem LinkUnit.setTag_responses (t : Tag) (b : Bool) (u : LinkUnit) : (LinkUnit.setTag t b u).responses = u.responses := rfl

@[simp] theorem LinkUnit.setTag_probes (t : Tag) (b : Bool) (u : LinkUnit) : (LinkUnit.setTag t b u).probes = u.probes := rfl

@[simp] theorem LinkUnit.setTag_requestChannel (t : Tag) (b : Bool) (u : LinkUnit) : (LinkUnit.setTag t b u).requestChannel = u.requestChannel := rfl

@[simp] theorem LinkUnit.setTag_toSlice (t : Tag) (b : Bool) (u : LinkUnit) : (LinkUnit.setTag t b u).toSlice = u.toSlice := rfl

@[simp] theorem LinkUnit.setTag_notices (t : Tag) (b : Bool) (u : LinkUnit) : (LinkUnit.setTag t b u).notices = u.notices := rfl

@[simp] theorem LinkUnit.setTag_reports (t : Tag) (b : Bool) (u : LinkUnit) : (LinkUnit.setTag t b u).reports = u.reports := rfl

@[simp] theorem LinkUnit.setTag_flushDones (t : Tag) (b : Bool) (u : LinkUnit) : (LinkUnit.setTag t b u).flushDones = u.flushDones := rfl

@[simp] theorem LinkUnit.setTag_fromController (t : Tag) (b : Bool) (u : LinkUnit) : (LinkUnit.setTag t b u).fromController = u.fromController := rfl

@[simp] theorem LinkUnit.setTag_clearReport (t : Tag) (b : Bool) (u : LinkUnit) : (LinkUnit.setTag t b u).clearReport = u.clearReport := rfl

@[simp] theorem LinkUnit.setTag_outcome (t : Tag) (b : Bool) (u : LinkUnit) : (LinkUnit.setTag t b u).outcome = u.outcome := rfl

@[simp] theorem LinkUnit.route_state (sid : SliceId) (m : SliceMsg) (u : LinkUnit) : (LinkUnit.route sid m u).state = u.state := rfl

@[simp] theorem LinkUnit.route_cls (sid : SliceId) (m : SliceMsg) (u : LinkUnit) : (LinkUnit.route sid m u).cls = u.cls := rfl

@[simp] theorem LinkUnit.route_heldHello (sid : SliceId) (m : SliceMsg) (u : LinkUnit) : (LinkUnit.route sid m u).heldHello = u.heldHello := rfl

@[simp] theorem LinkUnit.route_tags (sid : SliceId) (m : SliceMsg) (u : LinkUnit) : (LinkUnit.route sid m u).tags = u.tags := rfl

@[simp] theorem LinkUnit.route_confirm (sid : SliceId) (m : SliceMsg) (u : LinkUnit) : (LinkUnit.route sid m u).confirm = u.confirm := rfl

@[simp] theorem LinkUnit.route_reservations (sid : SliceId) (m : SliceMsg) (u : LinkUnit) : (LinkUnit.route sid m u).reservations = u.reservations := rfl

@[simp] theorem LinkUnit.route_slicesReported (sid : SliceId) (m : SliceMsg) (u : LinkUnit) : (LinkUnit.route sid m u).slicesReported = u.slicesReported := rfl

@[simp] theorem LinkUnit.route_consecutive (sid : SliceId) (m : SliceMsg) (u : LinkUnit) : (LinkUnit.route sid m u).consecutive = u.consecutive := rfl

@[simp] theorem LinkUnit.route_dataCheckFailures (sid : SliceId) (m : SliceMsg) (u : LinkUnit) : (LinkUnit.route sid m u).dataCheckFailures = u.dataCheckFailures := rfl

@[simp] theorem LinkUnit.route_discarded (sid : SliceId) (m : SliceMsg) (u : LinkUnit) : (LinkUnit.route sid m u).discarded = u.discarded := rfl

@[simp] theorem LinkUnit.route_retries (sid : SliceId) (m : SliceMsg) (u : LinkUnit) : (LinkUnit.route sid m u).retries = u.retries := rfl

@[simp] theorem LinkUnit.route_faultRecord (sid : SliceId) (m : SliceMsg) (u : LinkUnit) : (LinkUnit.route sid m u).faultRecord = u.faultRecord := rfl

@[simp] theorem LinkUnit.route_faultCount (sid : SliceId) (m : SliceMsg) (u : LinkUnit) : (LinkUnit.route sid m u).faultCount = u.faultCount := rfl

@[simp] theorem LinkUnit.route_responses (sid : SliceId) (m : SliceMsg) (u : LinkUnit) : (LinkUnit.route sid m u).responses = u.responses := rfl

@[simp] theorem LinkUnit.route_probes (sid : SliceId) (m : SliceMsg) (u : LinkUnit) : (LinkUnit.route sid m u).probes = u.probes := rfl

@[simp] theorem LinkUnit.route_requestChannel (sid : SliceId) (m : SliceMsg) (u : LinkUnit) : (LinkUnit.route sid m u).requestChannel = u.requestChannel := rfl

@[simp] theorem LinkUnit.route_toSlice (sid : SliceId) (m : SliceMsg) (u : LinkUnit) : (LinkUnit.route sid m u).toSlice = u.toSlice.set sid (u.toSlice[sid] ++ [m]) := rfl

@[simp] theorem LinkUnit.route_notices (sid : SliceId) (m : SliceMsg) (u : LinkUnit) : (LinkUnit.route sid m u).notices = u.notices := rfl

@[simp] theorem LinkUnit.route_reports (sid : SliceId) (m : SliceMsg) (u : LinkUnit) : (LinkUnit.route sid m u).reports = u.reports := rfl

@[simp] theorem LinkUnit.route_flushDones (sid : SliceId) (m : SliceMsg) (u : LinkUnit) : (LinkUnit.route sid m u).flushDones = u.flushDones := rfl

@[simp] theorem LinkUnit.route_fromController (sid : SliceId) (m : SliceMsg) (u : LinkUnit) : (LinkUnit.route sid m u).fromController = u.fromController := rfl

@[simp] theorem LinkUnit.route_clearReport (sid : SliceId) (m : SliceMsg) (u : LinkUnit) : (LinkUnit.route sid m u).clearReport = u.clearReport := rfl

@[simp] theorem LinkUnit.route_outcome (sid : SliceId) (m : SliceMsg) (u : LinkUnit) : (LinkUnit.route sid m u).outcome = u.outcome := rfl

@[simp] theorem LinkUnit.notifyAll_state (x : Notice) (u : LinkUnit) : (LinkUnit.notifyAll x u).state = u.state := rfl

@[simp] theorem LinkUnit.notifyAll_cls (x : Notice) (u : LinkUnit) : (LinkUnit.notifyAll x u).cls = u.cls := rfl

@[simp] theorem LinkUnit.notifyAll_heldHello (x : Notice) (u : LinkUnit) : (LinkUnit.notifyAll x u).heldHello = u.heldHello := rfl

@[simp] theorem LinkUnit.notifyAll_tags (x : Notice) (u : LinkUnit) : (LinkUnit.notifyAll x u).tags = u.tags := rfl

@[simp] theorem LinkUnit.notifyAll_confirm (x : Notice) (u : LinkUnit) : (LinkUnit.notifyAll x u).confirm = u.confirm := rfl

@[simp] theorem LinkUnit.notifyAll_reservations (x : Notice) (u : LinkUnit) : (LinkUnit.notifyAll x u).reservations = u.reservations := rfl

@[simp] theorem LinkUnit.notifyAll_slicesReported (x : Notice) (u : LinkUnit) : (LinkUnit.notifyAll x u).slicesReported = u.slicesReported := rfl

@[simp] theorem LinkUnit.notifyAll_consecutive (x : Notice) (u : LinkUnit) : (LinkUnit.notifyAll x u).consecutive = u.consecutive := rfl

@[simp] theorem LinkUnit.notifyAll_dataCheckFailures (x : Notice) (u : LinkUnit) : (LinkUnit.notifyAll x u).dataCheckFailures = u.dataCheckFailures := rfl

@[simp] theorem LinkUnit.notifyAll_discarded (x : Notice) (u : LinkUnit) : (LinkUnit.notifyAll x u).discarded = u.discarded := rfl

@[simp] theorem LinkUnit.notifyAll_retries (x : Notice) (u : LinkUnit) : (LinkUnit.notifyAll x u).retries = u.retries := rfl

@[simp] theorem LinkUnit.notifyAll_faultRecord (x : Notice) (u : LinkUnit) : (LinkUnit.notifyAll x u).faultRecord = u.faultRecord := rfl

@[simp] theorem LinkUnit.notifyAll_faultCount (x : Notice) (u : LinkUnit) : (LinkUnit.notifyAll x u).faultCount = u.faultCount := rfl

@[simp] theorem LinkUnit.notifyAll_responses (x : Notice) (u : LinkUnit) : (LinkUnit.notifyAll x u).responses = u.responses := rfl

@[simp] theorem LinkUnit.notifyAll_probes (x : Notice) (u : LinkUnit) : (LinkUnit.notifyAll x u).probes = u.probes := rfl

@[simp] theorem LinkUnit.notifyAll_requestChannel (x : Notice) (u : LinkUnit) : (LinkUnit.notifyAll x u).requestChannel = u.requestChannel := rfl

@[simp] theorem LinkUnit.notifyAll_toSlice (x : Notice) (u : LinkUnit) : (LinkUnit.notifyAll x u).toSlice = u.toSlice := rfl

@[simp] theorem LinkUnit.notifyAll_notices (x : Notice) (u : LinkUnit) : (LinkUnit.notifyAll x u).notices = u.notices.map (· ++ [x]) := rfl

@[simp] theorem LinkUnit.notifyAll_reports (x : Notice) (u : LinkUnit) : (LinkUnit.notifyAll x u).reports = u.reports := rfl

@[simp] theorem LinkUnit.notifyAll_flushDones (x : Notice) (u : LinkUnit) : (LinkUnit.notifyAll x u).flushDones = u.flushDones := rfl

@[simp] theorem LinkUnit.notifyAll_fromController (x : Notice) (u : LinkUnit) : (LinkUnit.notifyAll x u).fromController = u.fromController := rfl

@[simp] theorem LinkUnit.notifyAll_clearReport (x : Notice) (u : LinkUnit) : (LinkUnit.notifyAll x u).clearReport = u.clearReport := rfl

@[simp] theorem LinkUnit.notifyAll_outcome (x : Notice) (u : LinkUnit) : (LinkUnit.notifyAll x u).outcome = u.outcome := rfl

@[simp] theorem LinkUnit.enter_state (st : LinkState) (u : LinkUnit) : (LinkUnit.enter st u).state = st := rfl

@[simp] theorem LinkUnit.enter_cls (st : LinkState) (u : LinkUnit) : (LinkUnit.enter st u).cls = u.cls := rfl

@[simp] theorem LinkUnit.enter_heldHello (st : LinkState) (u : LinkUnit) : (LinkUnit.enter st u).heldHello = u.heldHello := rfl

@[simp] theorem LinkUnit.enter_tags (st : LinkState) (u : LinkUnit) : (LinkUnit.enter st u).tags = u.tags := rfl

@[simp] theorem LinkUnit.enter_confirm (st : LinkState) (u : LinkUnit) : (LinkUnit.enter st u).confirm = u.confirm := rfl

@[simp] theorem LinkUnit.enter_reservations (st : LinkState) (u : LinkUnit) : (LinkUnit.enter st u).reservations = u.reservations := rfl

@[simp] theorem LinkUnit.enter_slicesReported (st : LinkState) (u : LinkUnit) : (LinkUnit.enter st u).slicesReported = u.slicesReported := rfl

@[simp] theorem LinkUnit.enter_consecutive (st : LinkState) (u : LinkUnit) : (LinkUnit.enter st u).consecutive = u.consecutive := rfl

@[simp] theorem LinkUnit.enter_dataCheckFailures (st : LinkState) (u : LinkUnit) : (LinkUnit.enter st u).dataCheckFailures = u.dataCheckFailures := rfl

@[simp] theorem LinkUnit.enter_discarded (st : LinkState) (u : LinkUnit) : (LinkUnit.enter st u).discarded = u.discarded := rfl

@[simp] theorem LinkUnit.enter_retries (st : LinkState) (u : LinkUnit) : (LinkUnit.enter st u).retries = u.retries := rfl

@[simp] theorem LinkUnit.enter_faultRecord (st : LinkState) (u : LinkUnit) : (LinkUnit.enter st u).faultRecord = u.faultRecord := rfl

@[simp] theorem LinkUnit.enter_faultCount (st : LinkState) (u : LinkUnit) : (LinkUnit.enter st u).faultCount = u.faultCount := rfl

@[simp] theorem LinkUnit.enter_responses (st : LinkState) (u : LinkUnit) : (LinkUnit.enter st u).responses = u.responses := rfl

@[simp] theorem LinkUnit.enter_probes (st : LinkState) (u : LinkUnit) : (LinkUnit.enter st u).probes = u.probes := rfl

@[simp] theorem LinkUnit.enter_requestChannel (st : LinkState) (u : LinkUnit) : (LinkUnit.enter st u).requestChannel = u.requestChannel := rfl

@[simp] theorem LinkUnit.enter_toSlice (st : LinkState) (u : LinkUnit) : (LinkUnit.enter st u).toSlice = u.toSlice := rfl

@[simp] theorem LinkUnit.enter_notices (st : LinkState) (u : LinkUnit) : (LinkUnit.enter st u).notices = u.notices := rfl

@[simp] theorem LinkUnit.enter_reports (st : LinkState) (u : LinkUnit) : (LinkUnit.enter st u).reports = u.reports ++ [⟨st, u.cls⟩] := rfl

@[simp] theorem LinkUnit.enter_flushDones (st : LinkState) (u : LinkUnit) : (LinkUnit.enter st u).flushDones = u.flushDones := rfl

@[simp] theorem LinkUnit.enter_fromController (st : LinkState) (u : LinkUnit) : (LinkUnit.enter st u).fromController = u.fromController := rfl

@[simp] theorem LinkUnit.enter_clearReport (st : LinkState) (u : LinkUnit) : (LinkUnit.enter st u).clearReport = u.clearReport := rfl

@[simp] theorem LinkUnit.enter_outcome (st : LinkState) (u : LinkUnit) : (LinkUnit.enter st u).outcome = u.outcome := rfl

@[simp] theorem LinkUnit.discard_state (u : LinkUnit) : (LinkUnit.discard u).state = u.state := rfl

@[simp] theorem LinkUnit.discard_cls (u : LinkUnit) : (LinkUnit.discard u).cls = u.cls := rfl

@[simp] theorem LinkUnit.discard_heldHello (u : LinkUnit) : (LinkUnit.discard u).heldHello = u.heldHello := rfl

@[simp] theorem LinkUnit.discard_tags (u : LinkUnit) : (LinkUnit.discard u).tags = u.tags := rfl

@[simp] theorem LinkUnit.discard_confirm (u : LinkUnit) : (LinkUnit.discard u).confirm = u.confirm := rfl

@[simp] theorem LinkUnit.discard_reservations (u : LinkUnit) : (LinkUnit.discard u).reservations = u.reservations := rfl

@[simp] theorem LinkUnit.discard_slicesReported (u : LinkUnit) : (LinkUnit.discard u).slicesReported = u.slicesReported := rfl

@[simp] theorem LinkUnit.discard_consecutive (u : LinkUnit) : (LinkUnit.discard u).consecutive = u.consecutive := rfl

@[simp] theorem LinkUnit.discard_dataCheckFailures (u : LinkUnit) : (LinkUnit.discard u).dataCheckFailures = u.dataCheckFailures := rfl

@[simp] theorem LinkUnit.discard_discarded (u : LinkUnit) : (LinkUnit.discard u).discarded = satInc u.discarded := rfl

@[simp] theorem LinkUnit.discard_retries (u : LinkUnit) : (LinkUnit.discard u).retries = u.retries := rfl

@[simp] theorem LinkUnit.discard_faultRecord (u : LinkUnit) : (LinkUnit.discard u).faultRecord = u.faultRecord := rfl

@[simp] theorem LinkUnit.discard_faultCount (u : LinkUnit) : (LinkUnit.discard u).faultCount = u.faultCount := rfl

@[simp] theorem LinkUnit.discard_responses (u : LinkUnit) : (LinkUnit.discard u).responses = u.responses := rfl

@[simp] theorem LinkUnit.discard_probes (u : LinkUnit) : (LinkUnit.discard u).probes = u.probes := rfl

@[simp] theorem LinkUnit.discard_requestChannel (u : LinkUnit) : (LinkUnit.discard u).requestChannel = u.requestChannel := rfl

@[simp] theorem LinkUnit.discard_toSlice (u : LinkUnit) : (LinkUnit.discard u).toSlice = u.toSlice := rfl

@[simp] theorem LinkUnit.discard_notices (u : LinkUnit) : (LinkUnit.discard u).notices = u.notices := rfl

@[simp] theorem LinkUnit.discard_reports (u : LinkUnit) : (LinkUnit.discard u).reports = u.reports := rfl

@[simp] theorem LinkUnit.discard_flushDones (u : LinkUnit) : (LinkUnit.discard u).flushDones = u.flushDones := rfl

@[simp] theorem LinkUnit.discard_fromController (u : LinkUnit) : (LinkUnit.discard u).fromController = u.fromController := rfl

@[simp] theorem LinkUnit.discard_clearReport (u : LinkUnit) : (LinkUnit.discard u).clearReport = u.clearReport := rfl

@[simp] theorem LinkUnit.discard_outcome (u : LinkUnit) : (LinkUnit.discard u).outcome = u.outcome := rfl

/-! ## The small updates of a slice -/

@[simp] theorem Slice.send_dir (n : Agent) (m : LinkMsg) (s : Slice) : (Slice.send n m s).dir = s.dir := rfl

@[simp] theorem Slice.send_records (n : Agent) (m : LinkMsg) (s : Slice) : (Slice.send n m s).records = s.records := rfl

@[simp] theorem Slice.send_waitQueue (n : Agent) (m : LinkMsg) (s : Slice) : (Slice.send n m s).waitQueue = s.waitQueue := rfl

@[simp] theorem Slice.send_fenced (n : Agent) (m : LinkMsg) (s : Slice) : (Slice.send n m s).fenced = s.fenced := rfl

@[simp] theorem Slice.send_draining (n : Agent) (m : LinkMsg) (s : Slice) : (Slice.send n m s).draining = s.draining := rfl

@[simp] theorem Slice.send_engine (n : Agent) (m : LinkMsg) (s : Slice) : (Slice.send n m s).engine = s.engine := rfl

@[simp] theorem Slice.send_pendingQuiesce (n : Agent) (m : LinkMsg) (s : Slice) : (Slice.send n m s).pendingQuiesce = s.pendingQuiesce := rfl

@[simp] theorem Slice.send_submission (n : Agent) (m : LinkMsg) (s : Slice) : (Slice.send n m s).submission = s.submission := rfl

@[simp] theorem Slice.send_toLink (n : Agent) (m : LinkMsg) (s : Slice) : (Slice.send n m s).toLink = s.toLink.set n (s.toLink[n] ++ [m]) := rfl

@[simp] theorem Slice.send_toController (n : Agent) (m : LinkMsg) (s : Slice) : (Slice.send n m s).toController = s.toController := rfl

@[simp] theorem Slice.send_toEngine (n : Agent) (m : LinkMsg) (s : Slice) : (Slice.send n m s).toEngine = s.toEngine := rfl

@[simp] theorem Slice.send_picks (n : Agent) (m : LinkMsg) (s : Slice) : (Slice.send n m s).picks = s.picks := rfl

@[simp] theorem Slice.order_dir (op : MemOp) (owner : OpOwner) (s : Slice) : (Slice.order op owner s).dir = s.dir := rfl

@[simp] theorem Slice.order_records (op : MemOp) (owner : OpOwner) (s : Slice) : (Slice.order op owner s).records = s.records := rfl

@[simp] theorem Slice.order_waitQueue (op : MemOp) (owner : OpOwner) (s : Slice) : (Slice.order op owner s).waitQueue = s.waitQueue := rfl

@[simp] theorem Slice.order_fenced (op : MemOp) (owner : OpOwner) (s : Slice) : (Slice.order op owner s).fenced = s.fenced := rfl

@[simp] theorem Slice.order_draining (op : MemOp) (owner : OpOwner) (s : Slice) : (Slice.order op owner s).draining = s.draining := rfl

@[simp] theorem Slice.order_engine (op : MemOp) (owner : OpOwner) (s : Slice) : (Slice.order op owner s).engine = s.engine := rfl

@[simp] theorem Slice.order_pendingQuiesce (op : MemOp) (owner : OpOwner) (s : Slice) : (Slice.order op owner s).pendingQuiesce = s.pendingQuiesce := rfl

@[simp] theorem Slice.order_submission (op : MemOp) (owner : OpOwner) (s : Slice) : (Slice.order op owner s).submission = s.submission ++ [⟨op, owner⟩] := rfl

@[simp] theorem Slice.order_toLink (op : MemOp) (owner : OpOwner) (s : Slice) : (Slice.order op owner s).toLink = s.toLink := rfl

@[simp] theorem Slice.order_toController (op : MemOp) (owner : OpOwner) (s : Slice) : (Slice.order op owner s).toController = s.toController := rfl

@[simp] theorem Slice.order_toEngine (op : MemOp) (owner : OpOwner) (s : Slice) : (Slice.order op owner s).toEngine = s.toEngine := rfl

@[simp] theorem Slice.order_picks (op : MemOp) (owner : OpOwner) (s : Slice) : (Slice.order op owner s).picks = s.picks := rfl

@[simp] theorem Slice.updRec_dir (env : Env) (i : RecIdx) (f : Record → Record) (s : Slice) : (Slice.updRec env i f s).dir = s.dir := rfl

@[simp] theorem Slice.updRec_records (env : Env) (i : RecIdx) (f : Record → Record) (s : Slice) : (Slice.updRec env i f s).records = s.records.set i ((f s.records[i]).fixDeadline env) := rfl

@[simp] theorem Slice.updRec_waitQueue (env : Env) (i : RecIdx) (f : Record → Record) (s : Slice) : (Slice.updRec env i f s).waitQueue = s.waitQueue := rfl

@[simp] theorem Slice.updRec_fenced (env : Env) (i : RecIdx) (f : Record → Record) (s : Slice) : (Slice.updRec env i f s).fenced = s.fenced := rfl

@[simp] theorem Slice.updRec_draining (env : Env) (i : RecIdx) (f : Record → Record) (s : Slice) : (Slice.updRec env i f s).draining = s.draining := rfl

@[simp] theorem Slice.updRec_engine (env : Env) (i : RecIdx) (f : Record → Record) (s : Slice) : (Slice.updRec env i f s).engine = s.engine := rfl

@[simp] theorem Slice.updRec_pendingQuiesce (env : Env) (i : RecIdx) (f : Record → Record) (s : Slice) : (Slice.updRec env i f s).pendingQuiesce = s.pendingQuiesce := rfl

@[simp] theorem Slice.updRec_submission (env : Env) (i : RecIdx) (f : Record → Record) (s : Slice) : (Slice.updRec env i f s).submission = s.submission := rfl

@[simp] theorem Slice.updRec_toLink (env : Env) (i : RecIdx) (f : Record → Record) (s : Slice) : (Slice.updRec env i f s).toLink = s.toLink := rfl

@[simp] theorem Slice.updRec_toController (env : Env) (i : RecIdx) (f : Record → Record) (s : Slice) : (Slice.updRec env i f s).toController = s.toController := rfl

@[simp] theorem Slice.updRec_toEngine (env : Env) (i : RecIdx) (f : Record → Record) (s : Slice) : (Slice.updRec env i f s).toEngine = s.toEngine := rfl

@[simp] theorem Slice.updRec_picks (env : Env) (i : RecIdx) (f : Record → Record) (s : Slice) : (Slice.updRec env i f s).picks = s.picks := rfl

@[simp] theorem Slice.putSet_dir (p : Nat) (d : DirSet) (s : Slice) : (Slice.putSet s p d).dir = Sparse.put DirSet.empty s.dir p d := rfl

@[simp] theorem Slice.putSet_records (p : Nat) (d : DirSet) (s : Slice) : (Slice.putSet s p d).records = s.records := rfl

@[simp] theorem Slice.putSet_waitQueue (p : Nat) (d : DirSet) (s : Slice) : (Slice.putSet s p d).waitQueue = s.waitQueue := rfl

@[simp] theorem Slice.putSet_fenced (p : Nat) (d : DirSet) (s : Slice) : (Slice.putSet s p d).fenced = s.fenced := rfl

@[simp] theorem Slice.putSet_draining (p : Nat) (d : DirSet) (s : Slice) : (Slice.putSet s p d).draining = s.draining := rfl

@[simp] theorem Slice.putSet_engine (p : Nat) (d : DirSet) (s : Slice) : (Slice.putSet s p d).engine = s.engine := rfl

@[simp] theorem Slice.putSet_pendingQuiesce (p : Nat) (d : DirSet) (s : Slice) : (Slice.putSet s p d).pendingQuiesce = s.pendingQuiesce := rfl

@[simp] theorem Slice.putSet_submission (p : Nat) (d : DirSet) (s : Slice) : (Slice.putSet s p d).submission = s.submission := rfl

@[simp] theorem Slice.putSet_toLink (p : Nat) (d : DirSet) (s : Slice) : (Slice.putSet s p d).toLink = s.toLink := rfl

@[simp] theorem Slice.putSet_toController (p : Nat) (d : DirSet) (s : Slice) : (Slice.putSet s p d).toController = s.toController := rfl

@[simp] theorem Slice.putSet_toEngine (p : Nat) (d : DirSet) (s : Slice) : (Slice.putSet s p d).toEngine = s.toEngine := rfl

@[simp] theorem Slice.putSet_picks (p : Nat) (d : DirSet) (s : Slice) : (Slice.putSet s p d).picks = s.picks := rfl

/-! ## Reading back an element -/

/-- LUn after it has been changed. -/
@[simp] theorem State.updLink_self (s : State) (n : Agent) (f : LinkUnit → LinkUnit) :
    (s.updLink n f).links[n] = f s.links[n] := by
  simp [State.updLink]

/-- The other link units. -/
theorem State.updLink_other (s : State) (n m : Agent) (f : LinkUnit → LinkUnit) (h : m ≠ n) :
    (s.updLink n f).links[m] = s.links[m] := by
  have : n.val ≠ m.val := fun e => h (Fin.ext e.symm)
  simp [State.updLink, Vector.getElem_set_ne, this]

/-- Slice `sid` after it has been changed. -/
@[simp] theorem State.updSlice_self (s : State) (sid : SliceId) (f : Slice → Slice) :
    (s.updSlice sid f).slices[sid] = f s.slices[sid] := by
  simp [State.updSlice]

/-- The other slices. -/
theorem State.updSlice_other (s : State) (sid sid' : SliceId) (f : Slice → Slice) (h : sid' ≠ sid) :
    (s.updSlice sid f).slices[sid'] = s.slices[sid'] := by
  have : sid.val ≠ sid'.val := fun e => h (Fin.ext e.symm)
  simp [State.updSlice, Vector.getElem_set_ne, this]

/-- Two changes of one link unit are one. -/
theorem State.updLink_updLink (s : State) (n : Agent) (f g : LinkUnit → LinkUnit) :
    (s.updLink n f).updLink n g = s.updLink n fun u => g (f u) := by
  simp [State.updLink, Vector.set_set]

/-- Two changes of one slice are one. -/
theorem State.updSlice_updSlice (s : State) (sid : SliceId) (f g : Slice → Slice) :
    (s.updSlice sid f).updSlice sid g = s.updSlice sid fun x => g (f x) := by
  simp [State.updSlice, Vector.set_set]

/-- A record after it has been changed: its deadline follows (R40). -/
theorem Slice.updRec_self (env : Env) (i : RecIdx) (f : Record → Record) (s : Slice) :
    (Slice.updRec env i f s).records[i] = (f s.records[i]).fixDeadline env := by
  simp [Slice.updRec]

/-- The other records. -/
theorem Slice.updRec_other (env : Env) (i j : RecIdx) (f : Record → Record) (s : Slice) (h : j ≠ i) :
    (Slice.updRec env i f s).records[j] = s.records[j] := by
  have : i.val ≠ j.val := fun e => h (Fin.ext e.symm)
  simp [Slice.updRec, Vector.getElem_set_ne, this]

/-! ## Events of the running part -/

/-- Where no reset is applied the event is `f` (R208). -/
theorem whileReleased_of_released (s : State) (f : State → State) (h : s.resetPin = .released) :
    whileReleased s f = .next (f s) := by
  simp [whileReleased, h]

/-- While a reset is applied nothing happens (R208, log 13). -/
theorem whileReleased_of_reset (s : State) (f : State → State) (h : s.resetPin ≠ .released) : whileReleased s f = .next s := by
  simp [whileReleased, h]

/-- An event answers the state `f` gives, or the state itself. -/
theorem whileReleased_next (s t : State) (f : State → State) (h : whileReleased s f = .next t) : t = f s ∨ t = s := by
  unfold whileReleased at h
  split at h
  · left
    injection h with h
    exact h.symm
  · right
    injection h with h
    exact h.symm

end Sys2Proof.Machine
end

