-- ==== Sys2Proof/Laws/Links.lean ====
section
/-!
SUPPORT. Laws of the link units: which states are session states, how two changes of one block compose, what a message of the
request channel does where a command presents it, and what becomes of messages in a reset and of the reply-retry list.
-/

namespace Sys2Proof.Machine

/-! ## The link states -/

/-- The session states (7.2). -/
theorem LinkState.session_of_mem {x : LinkState} (h : x ∈ [LinkState.online, .drainingSettling, .drainingSweeping]) :
    x.session = true := by
  simp at h
  rcases h with h | h | h <;> simp [h, LinkState.session]

/-- OFFLINE and FENCED are no session states. -/
theorem LinkState.not_session_of_mem {x : LinkState} (h : x ∈ [LinkState.offline, .fencedSweeping, .fencedSwept]) :
    x.session = false := by
  simp at h
  rcases h with h | h | h <;> simp [h, LinkState.session]

/-- FENCED is no session state. -/
theorem LinkState.not_session_of_fenced {x : LinkState} (h : x ∈ [LinkState.fencedSweeping, .fencedSwept]) : x.session = false :=
  LinkState.not_session_of_mem (List.mem_cons_of_mem _ h)

/-- The two sub-states of FENCED. -/
theorem LinkState.fenced_of_mem {x : LinkState} (h : x ∈ [LinkState.fencedSweeping, .fencedSwept]) : x.fenced = true := by
  simp at h
  rcases h with h | h <;> simp [h, LinkState.fenced]

/-- Every tag of the link unit is FREE. -/
theorem LinkUnit.tagsFree_iff (u : LinkUnit) : u.tagsFree = true ↔ ∀ t : Tag, u.tags[t] = false := by
  unfold LinkUnit.tagsFree
  rw [Vector.all_eq_true]
  constructor
  · intro h t
    simpa using h t.val t.isLt
  · intro h i hi
    simpa using h ⟨i, hi⟩

/-! ## Two changes of one block -/

theorem State.updLink_congr {s : State} {n : Agent} {f g : LinkUnit → LinkUnit} (h : f s.links[n] = g s.links[n]) :
    s.updLink n f = s.updLink n g := by
  unfold State.updLink
  rw [h]

theorem State.updSlice_congr {s : State} {sid : SliceId} {f g : Slice → Slice} (h : f s.slices[sid] = g s.slices[sid]) :
    s.updSlice sid f = s.updSlice sid g := by
  unfold State.updSlice
  rw [h]

theorem State.updMgmt_congr {s : State} {f g : Mgmt → Mgmt} (h : f s.mgmt = g s.mgmt) : s.updMgmt f = s.updMgmt g := by
  unfold State.updMgmt
  rw [h]

theorem State.updMgmt_updMgmt (s : State) (f g : Mgmt → Mgmt) : (s.updMgmt f).updMgmt g = s.updMgmt fun m => g (f m) := rfl

theorem State.updLink_id (s : State) (n : Agent) : s.updLink n (fun u => u) = s := by
  simp [State.updLink]

theorem State.updSlice_id (s : State) (sid : SliceId) : s.updSlice sid (fun x => x) = s := by
  simp [State.updSlice]

/-! ## The request channel -/

/-- A message that its command presents, and that can be taken, is taken (R136). -/
theorem State.requestChannelEvent_of_presents {n : Agent} {src : Take ReqMsg} {m : ReqMsg} {rest : List ReqMsg}
    {p : ReqMsg → Bool} {s : State} (h : s.links[n].presents src m rest) (hk : p m = true) (hc : s.links[n].canTake m = true) :
    s.requestChannelEvent n src p = (s.updLink n fun u => { u with requestChannel := rest }).takeMessage n m := by
  rcases h with ⟨rfl, h1, rfl⟩ | ⟨rfl, h1⟩
  · simp only [State.requestChannelEvent]
    rw [if_pos (by simp only [h1, hc]; rfl)]
    refine congrArg _ ?_
    rw [← State.updLink_id s n, State.updLink_updLink]
    refine State.updLink_congr ?_
    generalize s.links[n] = u at h1
    cases u
    cases h1
    rfl
  · simp only [State.requestChannelEvent, h1, hk, hc, Bool.and_self, if_true]

/-! ## Messages of an agent and the resets -/

/-- Released, a message has its effect. -/
theorem messageEvent_released (n : Agent) (received : Bool) {s : State} (f : State → State) (h : s.resetPin = .released) :
    messageEvent n received s f = .next (f s) := by
  simp [messageEvent, h]

/-- In a hard reset a message received before it is discarded and counted (R132, log 10). -/
theorem messageEvent_hard (n : Agent) {s : State} (f : State → State) (h : s.resetPin = .hard) :
    messageEvent n true s f = .next (s.updLink n LinkUnit.discard) := by
  simp [messageEvent, h]

/-- In a power-on reset a message has no effect (R154). -/
theorem messageEvent_powerOn (n : Agent) (received : Bool) {s : State} (f : State → State) (h : s.resetPin = .powerOn) :
    messageEvent n received s f = .next s := by
  simp [messageEvent, h]

/-- Adding nothing to a counter leaves it. -/
theorem satAdd_zero {w : Nat} (c : BitVec w) : satAdd c 0 = c := by
  have h : c.toNat ≤ 2 ^ w - 1 := Nat.le_sub_one_of_lt c.isLt
  simp [satAdd, Nat.min_eq_left h]

/-- Where nothing waits, nothing is discarded (R132). -/
theorem LinkUnit.discardWaiting_of_nil {u : LinkUnit} (h : u.requestChannel = []) : u.discardWaiting = u := by
  cases u
  simp only at h
  subst h
  simp [LinkUnit.discardWaiting, satAdd_zero]

/-! ## Final responses -/

/-- Counting a Retry changes the Retry counter alone, and only for a Retry (R153). -/
theorem LinkUnit.countRetry_eq (r : Response) (u : LinkUnit) :
    u.countRetry r = { u with retries := if r.isRetry then satInc u.retries else u.retries } := by
  unfold LinkUnit.countRetry
  split <;> rfl

/-! ## The reply-retry list -/

/-- A DataRetry that is pending stands for another of its handle (R146, log 29). -/
theorem LinkUnit.queueReplyRetry_of_mem {h : Handle} {u : LinkUnit} (hm : .replyRetry h ∈ u.responses) :
    u.queueReplyRetry h = u := by
  simp [LinkUnit.queueReplyRetry, hm]

/-- A DataRetry whose handle is not on the list goes to the back (R146). -/
theorem LinkUnit.queueReplyRetry_of_not_mem {h : Handle} {u : LinkUnit} (hm : .replyRetry h ∉ u.responses) :
    u.queueReplyRetry h = u.push (.replyRetry h) := by
  simp [LinkUnit.queueReplyRetry, hm]

/-- No handle stands on the list twice (R146). -/
theorem LinkUnit.count_queueReplyRetry (h k : Handle) {u : LinkUnit} (hu : u.responses.count (.replyRetry k) ≤ 1) :
    (u.queueReplyRetry h).responses.count (.replyRetry k) ≤ 1 := by
  by_cases hm : Outbound.replyRetry h ∈ u.responses
  · rwa [LinkUnit.queueReplyRetry_of_mem hm]
  · rw [LinkUnit.queueReplyRetry_of_not_mem hm, LinkUnit.push, List.count_append]
    by_cases hk : h = k
    · subst hk
      simp [List.count_eq_zero_of_not_mem hm]
    · simp [hk, hu]

end Sys2Proof.Machine
end

