-- ==== Sys2Proof/Laws/Memory.lean ====
section
/-!
SUPPORT. Laws of the sparse tables and of the DRAM: reading after writing, and every memory operation keeps the canonical
form (Memory.wf).
-/

namespace Sys2Proof.Machine

/-! ## Sparse tables -/

section Sparse
variable {α : Type}

/-- Below every listed key the table holds the default. -/
theorem Sparse.get_of_lt (d : α) (m : List (Nat × α)) (a : Nat) (h : ∀ e ∈ m, a < e.1) : Sparse.get d m a = d := by
  induction m with
  | nil => rfl
  | cons e m ih =>
    obtain ⟨k, v⟩ := e
    have hk : a ≠ k := Nat.ne_of_lt (h (k, v) (List.mem_cons_self))
    simp only [Sparse.get, if_neg hk]
    exact ih fun e he => h e (List.mem_cons_of_mem _ he)

variable [DecidableEq α]

/-- The canonical form of a nonempty table, entry by entry. -/
theorem Sparse.wf_cons (d : α) (k : Nat) (v : α) (m : List (Nat × α)) :
    Sparse.wf d ((k, v) :: m) = true ↔ v ≠ d ∧ (∀ e ∈ m, k < e.1) ∧ Sparse.wf d m = true := by
  simp [Sparse.wf, and_assoc]

/-- A key of the table with a value put at `a` is `a` or a key of the table. -/
theorem Sparse.mem_put (d : α) (m : List (Nat × α)) (a : Nat) (v : α) (e : Nat × α) (h : e ∈ Sparse.put d m a v) :
    e.1 = a ∨ e ∈ m := by
  induction m with
  | nil =>
    simp only [Sparse.put] at h
    split at h
    · simp at h
    · simp only [List.mem_singleton] at h
      left
      rw [h]
  | cons x m ih =>
    obtain ⟨k, w⟩ := x
    simp only [Sparse.put] at h
    split at h
    · split at h
      · exact Or.inr h
      · rcases List.mem_cons.1 h with h | h
        · left
          rw [h]
        · exact Or.inr h
    · split at h
      · split at h
        · exact Or.inr (List.mem_cons_of_mem _ h)
        · rcases List.mem_cons.1 h with h | h
          · left
            rw [h]
          · exact Or.inr (List.mem_cons_of_mem _ h)
      · rcases List.mem_cons.1 h with h | h
        · right
          rw [h]
          exact List.mem_cons_self
        · rcases ih h with h | h
          · exact Or.inl h
          · exact Or.inr (List.mem_cons_of_mem _ h)

/-- Putting a value keeps the canonical form. -/
theorem Sparse.wf_put (d : α) (m : List (Nat × α)) (a : Nat) (v : α) (h : Sparse.wf d m = true) :
    Sparse.wf d (Sparse.put d m a v) = true := by
  induction m with
  | nil =>
    simp only [Sparse.put]
    split
    · rfl
    · next hv => simp [Sparse.wf, hv]
  | cons x m ih =>
    obtain ⟨k, w⟩ := x
    obtain ⟨hw, hk, hm⟩ := (Sparse.wf_cons d k w m).1 h
    simp only [Sparse.put]
    split
    · next hak =>
      split
      · exact h
      · next hv =>
        refine (Sparse.wf_cons d a v _).2 ⟨hv, ?_, h⟩
        intro e he
        rcases List.mem_cons.1 he with he | he
        · rw [he]
          exact hak
        · exact Nat.lt_trans hak (hk e he)
    · next hak =>
      split
      · next hak' =>
        split
        · exact hm
        · next hv => exact (Sparse.wf_cons d a v m).2 ⟨hv, fun e he => hak' ▸ hk e he, hm⟩
      · next hne =>
        refine (Sparse.wf_cons d k w _).2 ⟨hw, ?_, ih hm⟩
        intro e he
        rcases Sparse.mem_put d m a v e he with he | he
        · rw [he]
          omega
        · exact hk e he

/-- Reading a canonical table after a put. -/
theorem Sparse.get_put (d : α) (m : List (Nat × α)) (a : Nat) (v : α) (b : Nat) (h : Sparse.wf d m = true) :
    Sparse.get d (Sparse.put d m a v) b = if b = a then v else Sparse.get d m b := by
  induction m with
  | nil =>
    simp only [Sparse.put]
    split
    · next hv => simp [Sparse.get, hv]
    · simp [Sparse.get]
  | cons x m ih =>
    obtain ⟨k, w⟩ := x
    obtain ⟨hw, hk, hm⟩ := (Sparse.wf_cons d k w m).1 h
    simp only [Sparse.put]
    split
    · next hak =>
      split
      · next hv =>
        split
        · next hba =>
          rw [hba, hv]
          refine Sparse.get_of_lt d _ a ?_
          intro e he
          rcases List.mem_cons.1 he with he | he
          · rw [he]
            exact hak
          · exact Nat.lt_trans hak (hk e he)
        · rfl
      · rfl
    · split
      · next hak =>
        split
        · next hv =>
          split
          · next hba =>
            rw [hba, hv]
            exact Sparse.get_of_lt d m a fun e he => hak ▸ hk e he
          · next hba =>
            have : b ≠ k := fun hbk => hba (hbk.trans hak.symm)
            simp only [Sparse.get, if_neg this]
        · simp only [Sparse.get, hak]
          split <;> rfl
      · next hne =>
        simp only [Sparse.get]
        by_cases hbk : b = k
        · rw [if_pos hbk, if_pos hbk, if_neg]
          exact fun hba => hne (hba.symm.trans hbk)
        · rw [if_neg hbk, if_neg hbk]
          exact ih hm

/-- Dropping entries keeps the canonical form. -/
theorem Sparse.wf_filter (d : α) (m : List (Nat × α)) (p : Nat × α → Bool) (h : Sparse.wf d m = true) :
    Sparse.wf d (m.filter p) = true := by
  induction m with
  | nil => rfl
  | cons x m ih =>
    obtain ⟨k, w⟩ := x
    obtain ⟨hw, hk, hm⟩ := (Sparse.wf_cons d k w m).1 h
    by_cases hp : p (k, w) = true
    · rw [List.filter_cons_of_pos hp]
      exact (Sparse.wf_cons d k w _).2 ⟨hw, fun e he => hk e (List.mem_of_mem_filter he), ih hm⟩
    · rw [List.filter_cons_of_neg hp]
      exact ih hm

omit [DecidableEq α] in
/-- Reading a table after entries have been dropped by their keys. -/
theorem Sparse.get_filter (d : α) (m : List (Nat × α)) (p : Nat → Bool) (b : Nat) :
    Sparse.get d (m.filter fun e => p e.1) b = if p b then Sparse.get d m b else d := by
  induction m with
  | nil => simp [Sparse.get]
  | cons x m ih =>
    obtain ⟨k, w⟩ := x
    by_cases hp : p k = true
    · rw [List.filter_cons_of_pos (by simpa using hp)]
      simp only [Sparse.get]
      by_cases hb : b = k
      · subst hb
        simp [hp]
      · simp [hb, ih]
    · rw [List.filter_cons_of_neg (by simpa using hp), ih]
      by_cases hb : b = k
      · subst hb
        simp [hp]
      · simp [Sparse.get, hb]

end Sparse

/-! ## Storing a line -/

/-- The bytes of a stored line as a fold over some of its positions. -/
theorem storeBytes_fold_wf (l : Nat) (bytes : LineData) (is : List (Fin 64)) (m : List Host.Cell)
    (h : Sparse.wf 0#8 m = true) :
    Sparse.wf 0#8 (is.foldl (fun m i => Sparse.put 0#8 m (l * 64 + i.val) bytes[i]) m) = true := by
  induction is generalizing m with
  | nil => exact h
  | cons i is ih => exact ih _ (Sparse.wf_put 0#8 m _ _ h)

/-- Storing a line keeps the cells canonical. -/
theorem storeBytes_wf (cells : List Host.Cell) (l : Nat) (bytes : LineData) (h : Sparse.wf 0#8 cells = true) :
    Sparse.wf 0#8 (storeBytes cells l bytes) = true := by
  unfold storeBytes
  exact storeBytes_fold_wf l bytes _ cells h

/-- Reading after some positions of a line have been stored, away from them. -/
theorem storeBytes_fold_get_ne (l : Nat) (bytes : LineData) (is : List (Fin 64)) (m : List Host.Cell) (a : Nat)
    (h : Sparse.wf 0#8 m = true) (ha : ∀ i ∈ is, a ≠ l * 64 + i.val) :
    Sparse.get 0#8 (is.foldl (fun m i => Sparse.put 0#8 m (l * 64 + i.val) bytes[i]) m) a = Sparse.get 0#8 m a := by
  induction is generalizing m with
  | nil => rfl
  | cons i is ih =>
    rw [List.foldl_cons, ih _ (Sparse.wf_put 0#8 m _ _ h) fun j hj => ha j (List.mem_cons_of_mem _ hj), Sparse.get_put _ _ _ _ _ h,
      if_neg (ha i List.mem_cons_self)]

/-- Reading after some positions of a line have been stored, at one of them. -/
theorem storeBytes_fold_get (l : Nat) (bytes : LineData) (is : List (Fin 64)) (m : List Host.Cell) (i : Fin 64)
    (h : Sparse.wf 0#8 m = true) (hi : i ∈ is) (hn : is.Nodup) :
    Sparse.get 0#8 (is.foldl (fun m i => Sparse.put 0#8 m (l * 64 + i.val) bytes[i]) m) (l * 64 + i.val) = bytes[i] := by
  induction is generalizing m with
  | nil => simp at hi
  | cons j is ih =>
    rw [List.foldl_cons]
    have hjn : j ∉ is := (List.nodup_cons.1 hn).1
    have hw := Sparse.wf_put 0#8 m (l * 64 + j.val) bytes[j] h
    rcases List.mem_cons.1 hi with hij | hij
    · subst hij
      rw [storeBytes_fold_get_ne l bytes is _ _ hw, Sparse.get_put _ _ _ _ _ h, if_pos rfl]
      intro k hk hkk
      have : i.val = k.val := by omega
      exact hjn (Fin.ext this ▸ hk)
    · exact ih _ hw hij (List.nodup_cons.1 hn).2

/-- A byte of the cells after a line has been stored: inside the line the stored byte, outside it the byte before. -/
theorem storeBytes_get (cells : List Host.Cell) (l : Nat) (bytes : LineData) (a : Nat) (h : Sparse.wf 0#8 cells = true) :
    Sparse.get 0#8 (storeBytes cells l bytes) a =
      if a / 64 = l then bytes[a % 64]'(Nat.mod_lt _ (by decide)) else Sparse.get 0#8 cells a := by
  unfold storeBytes
  split
  · next hl =>
    have ha : a = l * 64 + (⟨a % 64, Nat.mod_lt _ (by decide)⟩ : Fin 64).val := by
      have := Nat.div_add_mod a 64
      simp only
      omega
    have := storeBytes_fold_get l bytes (List.finRange 64) cells ⟨a % 64, Nat.mod_lt _ (by decide)⟩ h
      (List.mem_finRange _) (List.nodup_finRange 64)
    rw [← ha] at this
    exact this
  · next hl =>
    refine storeBytes_fold_get_ne l bytes _ cells a h ?_
    intro i _ hai
    have := i.isLt
    omega

/-- A listed byte after some positions of a line have been stored lies in the line or was listed before. -/
theorem storeBytes_fold_mem (l : Nat) (bytes : LineData) (is : List (Fin 64)) (m : List Host.Cell) (e : Host.Cell)
    (h : e ∈ is.foldl (fun m i => Sparse.put 0#8 m (l * 64 + i.val) bytes[i]) m) : e.1 / 64 = l ∨ e ∈ m := by
  induction is generalizing m with
  | nil => exact Or.inr h
  | cons i is ih =>
    rcases ih _ h with h | h
    · exact Or.inl h
    · rcases Sparse.mem_put _ _ _ _ _ h with h | h
      · have := i.isLt
        left
        omega
      · exact Or.inr h

/-- A listed byte of the cells after a line has been stored lies in the line or was listed before. -/
theorem storeBytes_mem (cells : List Host.Cell) (l : Nat) (bytes : LineData) (e : Host.Cell)
    (h : e ∈ storeBytes cells l bytes) : e.1 / 64 = l ∨ e ∈ cells := by
  unfold storeBytes at h
  exact storeBytes_fold_mem l bytes _ cells e h

/-! ## The DRAM keeps its canonical form -/

/-- The parts of the canonical form. -/
theorem Memory.wf_iff (d : Dram) :
    Memory.wf d = true ↔
      Sparse.wf 0#8 d.cells = true ∧ Sparse.wf false d.marks = true ∧ Sparse.wf false d.known = true
        ∧ (∀ c ∈ d.cells, d.lineKnown (c.1 / 64) = true) ∧ (∀ c ∈ d.marks, d.lineKnown c.1 = true)
        ∧ ∀ c ∈ d.known, d.clearPosition ≤ c.1 := by
  simp [Memory.wf, and_assoc]

/-- The cells after a line has been written. -/
theorem Dram.writeLine_cells (d : Dram) (l : Nat) (bytes : LineData) (mark : Bool) :
    (d.writeLine l bytes mark).cells = storeBytes d.cells l bytes := rfl

/-- The marks after a line has been written. -/
theorem Dram.writeLine_marks (d : Dram) (l : Nat) (bytes : LineData) (mark : Bool) :
    (d.writeLine l bytes mark).marks = Sparse.put false d.marks l mark := rfl

/-- The written lines above the clear after a line has been written. -/
theorem Dram.writeLine_known (d : Dram) (l : Nat) (bytes : LineData) (mark : Bool) :
    (d.writeLine l bytes mark).known = if l < d.clearPosition then d.known else Sparse.put false d.known l true := rfl

/-- Writing a line does not move the clear. -/
theorem Dram.writeLine_clearPosition (d : Dram) (l : Nat) (bytes : LineData) (mark : Bool) :
    (d.writeLine l bytes mark).clearPosition = d.clearPosition := rfl

/-- Writing a line does not start or stop the clear. -/
theorem Dram.writeLine_clearRunning (d : Dram) (l : Nat) (bytes : LineData) (mark : Bool) :
    (d.writeLine l bytes mark).clearRunning = d.clearRunning := rfl

/-- Writing a line does not change the power-on count. -/
theorem Dram.writeLine_epoch (d : Dram) (l : Nat) (bytes : LineData) (mark : Bool) :
    (d.writeLine l bytes mark).epoch = d.epoch := rfl

/-- A line written whole is known. -/
theorem Dram.lineKnown_writeLine (d : Dram) (l : Nat) (bytes : LineData) (mark : Bool) (k : Nat)
    (h : Sparse.wf false d.known = true) :
    (d.writeLine l bytes mark).lineKnown k = (decide (k = l) || d.lineKnown k) := by
  unfold Dram.lineKnown
  rw [Dram.writeLine_known, Dram.writeLine_clearPosition]
  by_cases hk : k = l
  · subst hk
    by_cases hl : k < d.clearPosition
    · simp [hl]
    · rw [if_neg hl, Sparse.get_put _ _ _ _ _ h]
      simp
  · by_cases hl : l < d.clearPosition
    · simp [hl, hk]
    · rw [if_neg hl, Sparse.get_put _ _ _ _ _ h]
      simp [hk]

/-- Writing a whole line keeps the canonical form (R178 to R180). -/
theorem Memory.wf_writeLine (d : Dram) (l : Nat) (bytes : LineData) (mark : Bool) (h : Memory.wf d = true) :
    Memory.wf (d.writeLine l bytes mark) = true := by
  obtain ⟨hc, hm, hk, hcl, hml, hkp⟩ := (Memory.wf_iff d).1 h
  rw [Memory.wf_iff, Dram.writeLine_cells, Dram.writeLine_marks, Dram.writeLine_known, Dram.writeLine_clearPosition]
  refine ⟨storeBytes_wf _ _ _ hc, Sparse.wf_put _ _ _ _ hm, ?_, ?_, ?_, ?_⟩
  · split
    · exact hk
    · exact Sparse.wf_put _ _ _ _ hk
  · intro c hcm
    rw [Dram.lineKnown_writeLine _ _ _ _ _ hk]
    rcases storeBytes_mem _ _ _ _ hcm with hcm | hcm
    · simp [hcm]
    · simp [hcl c hcm]
  · intro c hcm
    rw [Dram.lineKnown_writeLine _ _ _ _ _ hk]
    rcases Sparse.mem_put _ _ _ _ _ hcm with hcm | hcm
    · simp [hcm]
    · simp [hml c hcm]
  · intro c hcm
    split at hcm
    · exact hkp c hcm
    · next hl =>
      rcases Sparse.mem_put _ _ _ _ _ hcm with hcm | hcm
      · omega
      · exact hkp c hcm

/-- A line that was known stays known when the clear advances, and so do the lines it has passed. -/
theorem Dram.lineKnown_clearTo (d : Dram) (hi k : Nat) :
    (d.clearTo hi).lineKnown k = (decide (k < hi) || d.lineKnown k) := by
  simp only [Dram.clearTo]
  split
  · next hle =>
    by_cases hk : k < hi
    · have : k < d.clearPosition := by omega
      simp [Dram.lineKnown, hk, this]
    · simp [hk]
  · next hlt =>
    simp only [Dram.lineKnown]
    rw [Sparse.get_filter false d.known (fun a => !(decide (d.clearPosition ≤ a) && decide (a < hi))) k]
    by_cases hk : k < hi
    · simp [hk]
    · have : ¬ k < d.clearPosition := by omega
      simp [hk, this]

/-- Advancing the clear keeps the canonical form (R183). -/
theorem Memory.wf_clearTo (d : Dram) (hi : Nat) (h : Memory.wf d = true) : Memory.wf (d.clearTo hi) = true := by
  obtain ⟨hc, hm, hk, hcl, hml, hkp⟩ := (Memory.wf_iff d).1 h
  have hkn := Dram.lineKnown_clearTo d hi
  by_cases hle : hi ≤ d.clearPosition
  · have : d.clearTo hi = d := by simp [Dram.clearTo, hle]
    rw [this]
    exact h
  · simp only [Dram.clearTo, if_neg hle] at hkn ⊢
    refine (Memory.wf_iff _).2 ⟨Sparse.wf_filter _ _ _ hc, Sparse.wf_filter _ _ _ hm, Sparse.wf_filter _ _ _ hk, ?_, ?_, ?_⟩
    · intro c hcm
      rw [hkn, hcl c (List.mem_of_mem_filter hcm)]
      simp
    · intro c hcm
      rw [hkn, hml c (List.mem_of_mem_filter hcm)]
      simp
    · intro c hcm
      have hmem := hkp c (List.mem_of_mem_filter hcm)
      have hp := (List.mem_filter.1 hcm).2
      simp only [Bool.not_eq_true', Bool.and_eq_false_imp, decide_eq_true_eq, decide_eq_false_iff_not] at hp
      have := hp hmem
      simp only
      omega

/-- The clear's flag is no part of the canonical form. -/
theorem Memory.wf_clearAll (d : Dram) (lines : Nat) (h : Memory.wf d = true) : Memory.wf (d.clearAll lines) = true :=
  Memory.wf_clearTo d lines h

/-- The clear running on keeps the canonical form. -/
theorem Memory.wf_clearOn (d : Dram) (k lines : Nat) (h : Memory.wf d = true) : Memory.wf (d.clearOn k lines) = true := by
  simp only [Dram.clearOn]
  split
  · exact Memory.wf_clearTo _ _ h
  · exact h

/-- After a power-on reset the DRAM's data are in canonical form. -/
theorem Memory.wf_powerOn (d : Dram) : Memory.wf d.powerOn = true := by
  simp [Memory.wf, Dram.powerOn, Sparse.wf]

/-! ## Reading after an operation -/

/-- One byte after a line has been written whole (R178). -/
theorem Dram.readByte_writeLine (d : Dram) (l : Nat) (bytes : LineData) (mark : Bool) (a : Nat) (h : Memory.wf d = true) :
    (d.writeLine l bytes mark).readByte a =
      if a / 64 = l then bytes[a % 64]'(Nat.mod_lt _ (by decide)) else d.readByte a := by
  obtain ⟨hc, _, hk, _, _, _⟩ := (Memory.wf_iff d).1 h
  have hkn := Dram.lineKnown_writeLine d l bytes mark (a / 64) hk
  unfold Dram.readByte
  rw [hkn]
  by_cases hl : a / 64 = l
  · rw [if_pos (by simp [hl]), if_pos hl, Dram.writeLine_cells, storeBytes_get _ _ _ _ hc, if_pos hl]
  · rw [if_neg hl, Dram.writeLine_cells, storeBytes_get _ _ _ _ hc, if_neg hl]
    by_cases hkl : d.lineKnown (a / 64) = true
    · rw [if_pos (by simp [hkl]), if_pos hkl]
    · rw [if_neg (by simp [hl, hkl]), if_neg hkl]
      unfold Dram.unlisted
      rw [hkn, if_neg (by simp [hl, hkl]), if_neg hkl, Dram.writeLine_epoch]

/-- The poison mark after a line has been written whole (R178 to R181). -/
theorem Dram.marked_writeLine (d : Dram) (l : Nat) (bytes : LineData) (mark : Bool) (k : Nat) (h : Memory.wf d = true) :
    (d.writeLine l bytes mark).marked k = if k = l then mark else d.marked k := by
  obtain ⟨_, hm, hk, _, _, _⟩ := (Memory.wf_iff d).1 h
  have hkn := Dram.lineKnown_writeLine d l bytes mark k hk
  unfold Dram.marked
  rw [hkn]
  by_cases hl : k = l
  · rw [if_pos (by simp [hl]), if_pos hl, Dram.writeLine_marks, Sparse.get_put _ _ _ _ _ hm, if_pos hl]
  · rw [if_neg hl, Dram.writeLine_marks, Sparse.get_put _ _ _ _ _ hm, if_neg hl]
    by_cases hkl : d.lineKnown k = true
    · rw [if_pos (by simp [hkl]), if_pos hkl]
    · rw [if_neg (by simp [hl, hkl]), if_neg hkl, Dram.writeLine_epoch]

/-- The line after it has been written whole. -/
theorem Dram.readLine_writeLine (d : Dram) (l : Nat) (bytes : LineData) (mark : Bool) (h : Memory.wf d = true) :
    (d.writeLine l bytes mark).readLine l = bytes := by
  unfold Dram.readLine
  refine Vector.ext fun i hi => ?_
  rw [Vector.getElem_ofFn, Dram.readByte_writeLine _ _ _ _ _ h, if_pos (by simp only; omega)]
  congr 1
  simp only
  omega

end Sys2Proof.Machine
end

