-- ==== Sys2Proof/Laws/PerInstr.lean ====
section
/-!
SUPPORT. Well-formedness, one lemma per command: which terms of each constructor are commands of its row, in the numerals of
the manual.
-/

namespace Sys2Proof.Laws.Wf

open Sys2Proof

/-- Which terms are commands of their row: code 0 or 9 to 15 (R212), the two configuration offsets and the offsets on which a
write acts (R198, 12.4), one to three data bytes (R197), and a message that fails the form test (R210). -/
def Statement (i : Instr) : Prop :=
  i.wf = match i with
    | .undefinedCommandCode code _ => code.toNat = 0 || 9 ≤ code.toNat
    | .configurationWrite off _ => off = 0x04#8 || off = 0x08#8
    | .registerWriteNoEffect off _ => off ≠ 0x04#8 && off ≠ 0x08#8 && off ≠ 0x0C#8 && off ≠ 0x10#8
    | .shortWrite _ data => data.length = 1 || data.length = 2 || data.length = 3
    | .messageFailingFormTest _ (.arriving m) =>
      Machine.kindLength m.channel (m.header.extractLsb' 0 6) != some m.length
    | _ => true

/-- HELLO. -/
theorem hello (n : Agent) (src : Take HelloMsg) : Statement (.hello n src) := rfl

/-- DEPART. -/
theorem depart (n : Agent) (src : Take Unit) : Statement (.depart n src) := rfl

/-- FLUSH_DONE. -/
theorem flushDone (n : Agent) (src : Take Unit) : Statement (.flushDone n src) := rfl

/-- FETCH_SHARED. -/
theorem fetchShared (n : Agent) (src : Take TagLine) : Statement (.fetchShared n src) := rfl

/-- FETCH_OWNED. -/
theorem fetchOwned (n : Agent) (src : Take TagLine) : Statement (.fetchOwned n src) := rfl

/-- PROMOTE. -/
theorem promote (n : Agent) (src : Take TagLine) : Statement (.promote n src) := rfl

/-- SNAPSHOT. -/
theorem snapshot (n : Agent) (src : Take TagLine) : Statement (.snapshot n src) := rfl

/-- MASKED_WRITE. -/
theorem maskedWrite (n : Agent) (src : Take MaskedWriteMsg) : Statement (.maskedWrite n src) := rfl

/-- RETURN_DIRTY. -/
theorem returnDirty (n : Agent) (src : Take ReturnDirtyMsg) : Statement (.returnDirty n src) := rfl

/-- RETURN_CLEAN. -/
theorem returnClean (n : Agent) (src : Take TagLine) : Statement (.returnClean n src) := rfl

/-- GONE. -/
theorem gone (n : Agent) (h : Handle) (line : LineAddr) : Statement (.gone n h line) := rfl

/-- CLEAN. -/
theorem clean (n : Agent) (h : Handle) (line : LineAddr) : Statement (.clean n h line) := rfl

/-- DIRTY. -/
theorem dirty (n : Agent) (m : DirtyMsg) : Statement (.dirty n m) := rfl

/-- GRANT_ACK. -/
theorem grantAck (n : Agent) (h : Handle) : Statement (.grantAck n h) := rfl

/-- LINK_DOWN. -/
theorem linkDown (n : Agent) : Statement (.linkDown n) := rfl

/-- RESPONSE_DEPARTS. -/
theorem responseDeparts (n : Agent) : Statement (.responseDeparts n) := rfl

/-- PROBE_DELIVERED. -/
theorem probeDelivered (n : Agent) : Statement (.probeDelivered n) := rfl

/-- FINAL_RESPONSE_TAKEN. -/
theorem finalResponseTaken (n : Agent) (sid : SliceId) : Statement (.finalResponseTaken n sid) := rfl

/-- PROBE_TAKEN. -/
theorem probeTaken (n : Agent) (sid : SliceId) : Statement (.probeTaken n sid) := rfl

/-- FLUSH_REQUEST. -/
theorem flushRequest (n : Agent) : Statement (.flushRequest n) := rfl

/-- TIMEOUT_REPORT. -/
theorem timeoutReport (n : Agent) (sid : SliceId) : Statement (.timeoutReport n sid) := rfl

/-- FAULT_REPORT. -/
theorem faultReport (n : Agent) (sid : SliceId) : Statement (.faultReport n sid) := rfl

/-- FLUSH_TIMEOUT_REPORT. -/
theorem flushTimeoutReport (n : Agent) : Statement (.flushTimeoutReport n) := rfl

/-- DRAIN_COMPLETION_REPORT. -/
theorem drainCompletionReport (n : Agent) (sid : SliceId) : Statement (.drainCompletionReport n sid) := rfl

/-- FENCE_COMPLETION_REPORT. -/
theorem fenceCompletionReport (n : Agent) (sid : SliceId) : Statement (.fenceCompletionReport n sid) := rfl

/-- DISCARD_NOTICE. -/
theorem discardNotice (n : Agent) : Statement (.discardNotice n) := rfl

/-- MEMORY_CLEAR_REPORT. -/
theorem memoryClearReport (n : Agent) : Statement (.memoryClearReport n) := rfl

/-- REQUEST_ARRIVAL. -/
theorem requestArrival (sid : SliceId) (n : Agent) : Statement (.requestArrival sid n) := rfl

/-- RETURN_ARRIVAL. -/
theorem returnArrival (sid : SliceId) (n : Agent) : Statement (.returnArrival sid n) := rfl

/-- REPLY_GONE. -/
theorem replyGone (sid : SliceId) (n : Agent) : Statement (.replyGone sid n) := rfl

/-- REPLY_CLEAN. -/
theorem replyClean (sid : SliceId) (n : Agent) : Statement (.replyClean sid n) := rfl

/-- REPLY_DIRTY. -/
theorem replyDirty (sid : SliceId) (n : Agent) : Statement (.replyDirty sid n) := rfl

/-- GRANT_ACK_ARRIVAL. -/
theorem grantAckArrival (sid : SliceId) (n : Agent) : Statement (.grantAckArrival sid n) := rfl

/-- RESPONSE_DEADLINE_EXPIRY. -/
theorem responseDeadlineExpiry (h : Handle) : Statement (.responseDeadlineExpiry h) := rfl

/-- MEMORY_READ_COMPLETION. -/
theorem memoryReadCompletion (line : LineAddr) : Statement (.memoryReadCompletion line) := rfl

/-- OPERATION_SUBMITTED. -/
theorem operationSubmitted : Statement (.operationSubmitted) := rfl

/-- READ. -/
theorem read (line : LineAddr) (ecc : EccOutcome) : Statement (.read line ecc) := rfl

/-- FULL_WRITE. -/
theorem fullWrite (line : LineAddr) : Statement (.fullWrite line) := rfl

/-- MERGE_WRITE. -/
theorem mergeWrite (line : LineAddr) (ecc : EccOutcome) : Statement (.mergeWrite line ecc) := rfl

/-- POISON_WRITE. -/
theorem poisonWrite (line : LineAddr) (ecc : EccOutcome) : Statement (.poisonWrite line ecc) := rfl

/-- MEMORY_CLEAR_COMPLETE. -/
theorem memoryClearComplete : Statement (.memoryClearComplete) := rfl

/-- MEMORY_READY. -/
theorem memoryReady : Statement (.memoryReady) := rfl

/-- FENCE_NOTICE. -/
theorem fenceNotice (sid : SliceId) (n : Agent) : Statement (.fenceNotice sid n) := rfl

/-- DRAIN_NOTICE. -/
theorem drainNotice (sid : SliceId) (n : Agent) : Statement (.drainNotice sid n) := rfl

/-- DRAIN_SWEEP_NOTICE. -/
theorem drainSweepNotice (sid : SliceId) (n : Agent) : Statement (.drainSweepNotice sid n) := rfl

/-- RELEASE_NOTICE. -/
theorem releaseNotice (sid : SliceId) (n : Agent) : Statement (.releaseNotice sid n) := rfl

/-- SWEEP_START_NOTICE. -/
theorem sweepStartNotice (sid : SliceId) : Statement (.sweepStartNotice sid) := rfl

/-- WITHDRAWAL_NOTICE. -/
theorem withdrawalNotice (sid : SliceId) : Statement (.withdrawalNotice sid) := rfl

/-- SWEEP_ARRIVAL. -/
theorem sweepArrival (sid : SliceId) : Statement (.sweepArrival sid) := rfl

/-- INSPECT_LOOKUP. -/
theorem inspectLookup (sid : SliceId) : Statement (.inspectLookup sid) := rfl

/-- SCRUB_ARRIVAL. -/
theorem scrubArrival (sid : SliceId) : Statement (.scrubArrival sid) := rfl

/-- QUIESCE_FLUSH_DONE. -/
theorem quiesceFlushDone (n : Agent) : Statement (.quiesceFlushDone n) := rfl

/-- LINK_STATE_REPORT. -/
theorem linkStateReport (n : Agent) : Statement (.linkStateReport n) := rfl

/-- FLUSH_TIMER_EXPIRY. -/
theorem flushTimerExpiry : Statement (.flushTimerExpiry) := rfl

/-- QUIESCE_COMPLETION_REPORT. -/
theorem quiesceCompletionReport (sid : SliceId) : Statement (.quiesceCompletionReport sid) := rfl

/-- DETACH. -/
theorem detach (arg : BitVec 28) : Statement (.detach arg) := rfl

/-- FENCE. -/
theorem fence (arg : BitVec 28) : Statement (.fence arg) := rfl

/-- RELEASE_FENCE. -/
theorem releaseFence (arg : BitVec 28) : Statement (.releaseFence arg) := rfl

/-- CLEAR_FAULT. -/
theorem clearFault (arg : BitVec 28) : Statement (.clearFault arg) := rfl

/-- QUIESCE. -/
theorem quiesce (arg : BitVec 28) : Statement (.quiesce arg) := rfl

/-- RESUME. -/
theorem resume (arg : BitVec 28) : Statement (.resume arg) := rfl

/-- INSPECT. -/
theorem inspect (arg : BitVec 28) : Statement (.inspect arg) := rfl

/-- SCRUB. -/
theorem scrub (arg : BitVec 28) : Statement (.scrub arg) := rfl

/-- UNDEFINED_COMMAND_CODE. -/
theorem undefinedCommandCode (code : BitVec 4) (arg : BitVec 28) : Statement (.undefinedCommandCode code arg) := by
  change (!Machine.commandDefined code) = (decide (code.toNat = 0) || decide (9 ≤ code.toNat))
  revert code
  decide

/-- COMMAND_OUTCOME. -/
theorem commandOutcome : Statement (.commandOutcome) := rfl

/-- CONFIGURATION_WRITE. -/
theorem configurationWrite (offset : BitVec 8) (value : BitVec 32) : Statement (.configurationWrite offset value) := rfl

/-- ALERT_STATUS_WRITE. -/
theorem alertStatusWrite (value : BitVec 32) : Statement (.alertStatusWrite value) := rfl

/-- OFFSET_WRITE. -/
theorem offsetWrite (offset : BitVec 8) : Statement (.offsetWrite offset) := rfl

/-- SHORT_WRITE. -/
theorem shortWrite (offset : BitVec 8) (data : List Byte) : Statement (.shortWrite offset data) := by
  unfold Statement Instr.wf
  rw [Bool.eq_iff_iff]
  simp only [Bool.and_eq_true, Bool.or_eq_true, decide_eq_true_eq]
  omega

/-- REGISTER_WRITE_NO_EFFECT. -/
theorem registerWriteNoEffect (offset : BitVec 8) (value : BitVec 32) : Statement (.registerWriteNoEffect offset value) := by
  unfold Statement Instr.wf Machine.offConfig Machine.offAlertMask Machine.offAlertStatus Machine.offCommand
  rw [Bool.eq_iff_iff]
  simp [and_assoc]

/-- POWER_ON_RESET. -/
theorem powerOnReset : Statement (.powerOnReset) := rfl

/-- POWER_ON_RESET_RELEASE. -/
theorem powerOnResetRelease (msize : Bool) (addr : BitVec 2) : Statement (.powerOnResetRelease msize addr) := rfl

/-- HARD_RESET. -/
theorem hardReset : Statement (.hardReset) := rfl

/-- HARD_RESET_RELEASE. -/
theorem hardResetRelease (msize : Bool) (addr : BitVec 2) : Statement (.hardResetRelease msize addr) := rfl

/-- MESSAGE_FAILING_FORM_TEST. -/
theorem messageFailingFormTest (n : Agent) (src : Take MalformedMsg) : Statement (.messageFailingFormTest n src) := by
  cases src <;> rfl

end Sys2Proof.Laws.Wf
end

