-- ==== Sys2Proof/Laws/Slice.lean ====
section
/-!
SUPPORT. Laws of a slice going on within one event: what each part of it waits for, as a Bool over the slice's data, and what
`settle` and `goOn` do with a slice at which nothing follows.
-/

namespace Sys2Proof.Machine

/-! ## Records -/

/-- Record r goes on by itself: `noOps` says that no operation it ordered is still in the submission list. -/
def Record.goesOn (r : Record) (noOps : Bool) : Bool :=
  if r.phase = .free then false
  else if r.finished then noOps
  else if r.phase = .confirm then false
  else
    match r.kind with
    | .fetchShared | .fetchOwned | .promote =>
      r.grantReady || (r.originFenced && !r.awaits && !r.memRead && r.victim.isNone
        && ((r.lastWrite.isSome && !r.ordered) || noOps))
    | .snapshot => !r.awaits && !r.memRead && (r.originFenced || r.buffer.isSome)
    | .maskedWrite => if r.ordered then !r.awaits && noOps else r.baseKnown
    | .scrub => !r.awaits && (!r.ordered || noOps)
    | .recall => !r.awaits && noOps

/-- Whether a record goes on depends on the record and on whether its operations have left the list, and on nothing else. -/
theorem Slice.progress_isSome (env : Env) (i : RecIdx) (s : Slice) :
    (s.progress env i).isSome = s.records[i].goesOn (s.noOps i) := by
  generalize hr : s.records[i] = r
  unfold Slice.progress Record.goesOn
  rw [hr]
  by_cases h1 : r.phase = .free
  · simp [h1]
  by_cases h2 : r.finished = true
  · cases hn : s.noOps i <;> simp [h1, h2]
  by_cases h3 : r.phase = .confirm
  · simp [h2, h3]
  simp only [h1, h2, h3, if_false]
  have caching :
      (if r.grantReady = true then some (s.sendGrant env i)
        else if (r.originFenced && !r.awaits && !r.memRead && r.victim.isNone) = true then
          match r.lastWrite, r.ordered with
          | some d, false =>
            some ((s.order (.fullWrite r.line d) (.record i)).updRec env i fun r => { r with ordered := true })
          | _, _ => if s.noOps i = true then some ((s.fencedEdit env i).endRecord env i) else none
        else none).isSome =
      (r.grantReady || (r.originFenced && !r.awaits && !r.memRead && r.victim.isNone
        && ((r.lastWrite.isSome && !r.ordered) || s.noOps i))) := by
    cases hg : r.grantReady
    · simp only [Bool.false_or, Bool.false_eq_true, if_false]
      cases hc : (r.originFenced && !r.awaits && !r.memRead && r.victim.isNone)
      · simp
      · cases hl : r.lastWrite <;> cases ho : r.ordered <;> cases hn : s.noOps i <;> simp
    · simp
  cases hk : r.kind <;> simp only []
  · exact caching
  · exact caching
  · exact caching
  · cases r.awaits <;> cases r.memRead <;> cases r.originFenced <;> cases r.buffer <;> simp
  · cases r.ordered <;> cases r.awaits <;> cases r.baseKnown <;> cases s.noOps i <;> simp
  · cases r.awaits <;> cases s.noOps i <;> simp
  · cases r.ordered <;> cases r.awaits <;> cases s.noOps i <;> simp

/-- No record goes on. -/
theorem Slice.progressAny_none (env : Env) (s : Slice) :
    s.progressAny env = none ↔ ∀ i : RecIdx, s.records[i].goesOn (s.noOps i) = false := by
  unfold Slice.progressAny
  rw [List.findSome?_eq_none_iff]
  constructor
  · intro h i
    rw [← Slice.progress_isSome env i s, h i (List.mem_finRange i)]
    rfl
  · intro h i _
    have := h i
    rw [← Slice.progress_isSome env i s] at this
    simpa using this

/-- No eviction completes. -/
theorem Slice.findEviction_none (s : Slice) : s.findEviction = none ↔ ∀ i : RecIdx, s.records[i].evictionDone = false := by
  unfold Slice.findEviction
  rw [List.find?_eq_none]
  simp [List.mem_finRange]

/-! ## The arbiter and the engine -/

/-- A first element is taken where there is one. -/
theorem takeFirst_isSome {α : Type} (p : α → Bool) (l : List α) : (takeFirst p l).isSome = l.any p := by
  induction l with
  | nil => rfl
  | cons x xs ih =>
    simp only [takeFirst, List.any_cons]
    cases hp : p x
    · simp [ih]
    · simp

/-- A FREE record is handed out where there is one. -/
theorem Slice.takeFree_isSome (sid : SliceId) (s : Slice) : (s.takeFree sid).isSome = !s.freeRecords.isEmpty := by
  unfold Slice.takeFree
  split <;> next h => simp [h]

/-- The arbiter acts where a waiter is eligible and a record is FREE (R38). -/
theorem Slice.arbitrate_isSome (env : Env) (s : Slice) :
    (s.arbitrate env).isSome = (s.waitQueue.any s.eligible && !s.freeRecords.isEmpty) := by
  unfold Slice.arbitrate
  have h := takeFirst_isSome s.eligible s.waitQueue
  rw [← h, ← Slice.takeFree_isSome env.sid]
  split
  · next hn => simp [hn]
  · next hs => simp [hs]

/-- The engine walks on. -/
def Slice.walks (s : Slice) : Bool :=
  match s.engine.visit with
  | .waitingAtSet => s.settledSet s.engine.position
  | .waitingForRecord => s.engine.pendingLines.isEmpty || (!(s.waitQueue.any s.eligible) && !s.freeRecords.isEmpty)
  | .leaving => s.noEngineOps
  | .idle => false
  | .travelling => false

/-- The engine's walk, as a condition over the slice's data (R120 to R123). -/
theorem Slice.walkAct_isSome (env : Env) (s : Slice) : (s.walkAct env).isSome = s.walks := by
  unfold Slice.walkAct Slice.walks
  cases hv : s.engine.visit <;> simp only []
  · rfl
  · cases h : s.settledSet s.engine.position <;> simp
  · unfold Slice.examine
    split
    · next hp => simp [hp]
    · next l ls hp =>
      have hf := Slice.takeFree_isSome env.sid s
      cases he : s.waitQueue.any s.eligible
      · cases ht : s.takeFree env.sid with
        | none =>
          rw [ht] at hf
          simp [hp, ← hf]
        | some x =>
          rw [ht] at hf
          have hfn : s.freeRecords.isEmpty = false := by simpa using hf.symm
          simp only [Bool.false_eq_true, if_false, hp, hfn]
          split
          · simp
          · split <;> simp
      · simp [hp]
  · cases h : s.noEngineOps <;> simp
  · rfl

/-- The engine acts: a job completes, the engine walks, or the QUIESCE job joins. -/
theorem Slice.engineAct_isSome (env : Env) (s : Slice) :
    (s.engineAct env).isSome =
      (s.engine.jobs.any (fun j => !j.walking && j.inFlight = 0) || s.walks || (s.pendingQuiesce.isSome && s.atRest)) := by
  unfold Slice.engineAct
  have hc : s.completeJob.isSome = s.engine.jobs.any (fun j => !j.walking && j.inFlight = 0) := by
    rw [← takeFirst_isSome]
    unfold Slice.completeJob
    split
    · next h => simp [h]
    · next h => simp [h]
  have hw := Slice.walkAct_isSome env s
  have hq : s.quiesceJoin.isSome = (s.pendingQuiesce.isSome && s.atRest) := by
    unfold Slice.quiesceJoin
    cases hp : s.pendingQuiesce with
    | none => simp
    | some k => cases ha : s.atRest <;> simp
  split
  · next h => simp [← hc, h]
  · next h =>
    split
    · next h' => simp [← hc, ← hw, h, h']
    · next h' => simp [← hc, ← hw, h, h', hq]

/-- Nothing follows at the slice, as conditions over its data. -/
theorem Slice.still_iff (env : Env) (s : Slice) :
    s.still env ↔
      (∀ i : RecIdx, s.records[i].evictionDone = false)
        ∧ (s.waitQueue.any s.eligible && !s.freeRecords.isEmpty) = false
        ∧ (∀ i : RecIdx, s.records[i].goesOn (s.noOps i) = false)
        ∧ (s.engine.jobs.any (fun j => !j.walking && j.inFlight = 0) || s.walks
            || (s.pendingQuiesce.isSome && s.atRest)) = false := by
  unfold Slice.still
  rw [Slice.findEviction_none, Slice.progressAny_none, ← Slice.arbitrate_isSome env, ← Slice.engineAct_isSome env]
  simp only [Option.isSome_eq_false_iff, Option.isNone_iff_eq_none]

/-! ## Going on -/

/-- Where nothing follows, going on changes nothing. -/
theorem Slice.settle_of_still (env : Env) (eng wake : Bool) (k : Nat) (s : Slice) (h : s.still env) :
    Slice.settle env eng (k + 2) wake s = s := by
  obtain ⟨h1, h2, h3, h4⟩ := h
  cases wake <;> cases eng <;> simp [Slice.settle, h1, h2, h3, h4]

/-- Where nothing follows, the event is over. -/
theorem Slice.goOn_of_still (env : Env) (wake : Bool) (s : Slice) (h : s.still env) : s.goOn env wake = s := by
  unfold Slice.goOn Slice.fuel
  have : 1024 + 64 * s.waitQueue.length = (1022 + 64 * s.waitQueue.length) + 2 := by omega
  rw [this]
  exact Slice.settle_of_still env true wake _ s h

/-- A slice whose records are all FREE, with no waiter, an IDLE engine without jobs and no pending quiesce sweep, is still. -/
theorem Slice.still_of_quiet (env : Env) (s : Slice) (hr : ∀ i : RecIdx, s.records[i].phase = .free) (hw : s.waitQueue = [])
    (hj : s.engine.jobs = []) (hv : s.engine.visit = .idle) (hq : s.pendingQuiesce = none) : s.still env := by
  rw [Slice.still_iff]
  refine ⟨fun i => ?_, ?_, fun i => ?_, ?_⟩
  · unfold Record.evictionDone
    rw [hr i]
    rfl
  · simp [hw]
  · unfold Record.goesOn
    rw [hr i]
    rfl
  · simp [hj, hq, Slice.walks, hv]

/-- An event at a slice where nothing follows from what `f` does. -/
theorem State.sliceEvent_of_still (s : State) (sid : SliceId) (wake : Bool) (f : Env → Slice → Slice)
    (h : (f (s.env sid) s.slices[sid]).still (s.env sid)) :
    s.sliceEvent sid wake f = s.updSlice sid (f (s.env sid)) := by
  unfold State.sliceEvent State.updSlice
  simp only
  rw [Slice.goOn_of_still _ _ _ h]

/-! ## What keeps a slice still -/

/-- The engine acts (R120 to R124, R191). -/
def Slice.engineActs (s : Slice) : Bool :=
  (s.engine.jobs.any (fun j => !j.walking && j.inFlight = 0) || s.walks || (s.pendingQuiesce.isSome && s.atRest))

/-- The arbiter acts (R38). -/
def Slice.arbiterActs (s : Slice) : Bool := (s.waitQueue.any s.eligible && !s.freeRecords.isEmpty)

/-- Nothing follows at the slice, in four parts. -/
theorem Slice.still_parts (env : Env) (x : Slice) : x.still env ↔ (∀ i : RecIdx, x.records[i].evictionDone = false) ∧ x.arbiterActs = false
    ∧ (∀ i : RecIdx, x.records[i].goesOn (x.noOps i) = false) ∧ x.engineActs = false := Slice.still_iff env x

/-- An engine that had nothing to do still has nothing to do after a change that settles no set, empties nothing and frees no record. -/
theorem Slice.engineActs_mono (x y : Slice) (h : x.engineActs = false) (he : y.engine = x.engine)
    (hs : ∀ p, y.settledSet p = true → x.settledSet p = true) (ho : y.noEngineOps = true → x.noEngineOps = true)
    (hq : y.pendingQuiesce = x.pendingQuiesce) (hr : y.atRest = true → x.atRest = true)
    (hf : (!(y.waitQueue.any y.eligible) && !y.freeRecords.isEmpty) = true → (!(x.waitQueue.any x.eligible) && !x.freeRecords.isEmpty) = true) :
    y.engineActs = false := by
  unfold Slice.engineActs at h ⊢
  simp only [Bool.or_eq_false_iff] at h ⊢
  obtain ⟨⟨a, b⟩, c⟩ := h
  refine ⟨⟨by rw [he]; exact a, ?_⟩, ?_⟩
  · unfold Slice.walks at b ⊢
    rw [he]
    cases hv : x.engine.visit <;> simp only [hv] at b ⊢
    · cases hh : y.settledSet x.engine.position
      · rfl
      · rw [hs _ hh] at b; exact absurd b (by simp)
    · simp only [Bool.or_eq_false_iff] at b ⊢
      refine ⟨b.1, ?_⟩
      cases hh : (!(y.waitQueue.any y.eligible) && !y.freeRecords.isEmpty)
      · rfl
      · rw [hf hh] at b; exact absurd b.2 (by simp)
    · cases hh : y.noEngineOps
      · rfl
      · rw [ho hh] at b; exact absurd b (by simp)
  · rw [hq]
    cases hh : y.atRest
    · simp
    · rw [hr hh] at c; simpa using c

/-- Changes that stillness does not see. -/
theorem Slice.still_of_same (env : Env) (x y : Slice) (h : x.still env) (h1 : y.records = x.records) (h2 : y.waitQueue = x.waitQueue)
    (h3 : y.submission = x.submission) (h4 : y.engine = x.engine) (h5 : y.pendingQuiesce = x.pendingQuiesce) (h6 : y.dir = x.dir) : y.still env := by
  obtain ⟨d, r, w, f, dr, e, pq, sub, tl, tc, te, pk⟩ := y
  obtain ⟨d', r', w', f', dr', e', pq', sub', tl', tc', te', pk'⟩ := x
  simp only at h1 h2 h3 h4 h5 h6
  subst h1 h2 h3 h4 h5 h6
  rw [Slice.still_parts] at h ⊢
  exact h

/-- No record holds the line. -/
theorem Slice.held_eq_false (x : Slice) (l : LineAddr) : x.held l = false ↔ ∀ i : RecIdx, ¬ x.records[i].holds l := by
  unfold Slice.held Slice.holder Record.holds
  rw [Option.isSome_eq_false_iff, Option.isNone_iff_eq_none, List.find?_eq_none]
  constructor
  · intro h i ⟨h1, h2⟩
    have := h i (List.mem_finRange i)
    simp [-Fin.getElem_fin] at this
    rcases h2 with h2 | h2
    · exact (this h1).1 h2
    · exact (this h1).2 h2
  · intro h i _
    have := h i
    simp [-Fin.getElem_fin]
    intro h1
    exact ⟨fun h2 => this ⟨h1, Or.inl h2⟩, fun h2 => this ⟨h1, Or.inr h2⟩⟩

/-- Some record holds the line (R29). -/
theorem Slice.held_iff (x : Slice) (l : LineAddr) : x.held l = true ↔ ∃ i : RecIdx, x.records[i].holds l := by
  rw [← Bool.not_eq_false, Slice.held_eq_false]; push Not; rfl

/-- No record is FREE. -/
theorem Slice.freeRecords_isEmpty (x : Slice) : x.freeRecords.isEmpty = true ↔ ∀ i : RecIdx, x.records[i].phase ≠ .free := by
  unfold Slice.freeRecords
  simp [-Fin.getElem_fin, List.filter_eq_nil_iff]

/-- There is no FREE record to hand out. -/
theorem Slice.takeFree_none (x : Slice) (sid) : x.takeFree sid = none ↔ ∀ i : RecIdx, x.records[i].phase ≠ .free := by
  rw [← Slice.freeRecords_isEmpty]
  have := Slice.takeFree_isSome sid x
  cases h : x.takeFree sid <;> rw [h] at this <;> simp at this ⊢ <;> exact this

/-- What a choice hands out: a FREE record, and the slice with its counter of choices gone on (log 4). -/
theorem Slice.takeFree_some {x : Slice} {sid i y} (h : x.takeFree sid = some (i, y)) : x.records[i].phase = .free ∧ ∃ p, y = { x with picks := p } := by
  have hm : ∀ j ∈ x.freeRecords, x.records[j].phase = .free := by
    intro j hj
    unfold Slice.freeRecords at hj
    simpa [-Fin.getElem_fin] using (List.mem_filter.1 hj).2
  unfold Slice.takeFree at h
  split at h
  · cases h
  · next j hj => 
      obtain ⟨rfl, rfl⟩ := by simpa using h
      exact ⟨hm _ (by simp [hj]), _, rfl⟩
  · next a b c hj =>
      simp only [Option.some.injEq, Prod.mk.injEq] at h
      obtain ⟨h1, rfl⟩ := h
      refine ⟨hm _ ?_, _, rfl⟩
      rw [hj, ← h1]
      exact List.getElem_mem _

/-- Where more lines are held, no more waiters are eligible. -/
theorem Slice.eligible_of_held {x y : Slice} (h : ∀ l, x.held l = true → y.held l = true) (w : Waiter) : y.eligible w = true → x.eligible w = true := by
  unfold Slice.eligible
  intro h'
  cases hx : x.held w.line
  · rfl
  · rw [h _ hx] at h'; exact absurd h' (by simp)

/-- A record that starts at a slice where nothing follows, and that does not go on by itself, leaves it so. -/
theorem Slice.still_of_start (env : Env) (x y : Slice) (i : RecIdx) (r : Record) (hx : x.still env) (hf : x.records[i].phase = .free)
    (h1 : y.records = x.records.set i r) (hr : r.phase ≠ .free) (hr2 : r.evictionDone = false) (hr3 : r.goesOn (y.noOps i) = false)
    (hsub : ∃ ops, y.submission = x.submission ++ ops ∧ ∀ o ∈ ops, o.owner = .record i)
    (he : y.engine = x.engine) (hq : y.pendingQuiesce = x.pendingQuiesce) (hw : y.waitQueue = x.waitQueue)
    (hd : ∀ p w t h, (x.getSet p).ways[(w : WayIdx)] = .reserved t h → ∃ t h, (y.getSet p).ways[w] = .reserved t h) : y.still env := by
  rw [Slice.still_parts] at hx ⊢
  obtain ⟨a, b, c, d⟩ := hx
  have hi : y.records[i] = r := by rw [h1]; simp
  have hj : ∀ j : RecIdx, j ≠ i → y.records[j] = x.records[j] := by
    intro j hj; rw [h1]
    have : i.val ≠ j.val := fun e => hj (Fin.ext e.symm)
    simp [Vector.getElem_set_ne, this]
  obtain ⟨ops, hs, ho⟩ := hsub
  have hno : ∀ j : RecIdx, j ≠ i → y.noOps j = x.noOps j := by
    intro j hji
    unfold Slice.noOps
    rw [hs, List.all_append]
    have : ops.all (fun o => o.owner != .record j) = true := by
      rw [List.all_eq_true]; intro o h; rw [ho o h]; simp [Ne.symm hji]
    rw [this, Bool.and_true]
  have hheld : ∀ l, x.held l = true → y.held l = true := by
    intro l; rw [Slice.held_iff, Slice.held_iff]
    rintro ⟨j, hj1⟩
    by_cases h : j = i
    · subst h; exact absurd hf hj1.1
    · exact ⟨j, by rw [hj j h]; exact hj1⟩
  have hfree : y.freeRecords.isEmpty = false → x.freeRecords.isEmpty = false := by
    intro h
    by_contra h'
    rw [Bool.not_eq_false, Slice.freeRecords_isEmpty] at h'
    exact h' i hf
  have hxf : x.freeRecords.isEmpty = false := by
    by_contra h'
    rw [Bool.not_eq_false, Slice.freeRecords_isEmpty] at h'
    exact h' i hf
  have hxe : x.waitQueue.any x.eligible = false := by
    unfold Slice.arbiterActs at b; rw [hxf] at b; simpa using b
  have hye : y.waitQueue.any y.eligible = false := by
    rw [hw]
    rw [List.any_eq_false] at hxe ⊢
    intro w hwm hh
    exact hxe w hwm (Slice.eligible_of_held hheld w hh)
  refine ⟨fun j => ?_, ?_, fun j => ?_, ?_⟩
  · by_cases h : j = i
    · subst h; rw [hi]; exact hr2
    · rw [hj j h]; exact a j
  · unfold Slice.arbiterActs; rw [hye]; rfl
  · by_cases h : j = i
    · subst h; rw [hi]; exact hr3
    · rw [hj j h, hno j h]; exact c j
  · refine Slice.engineActs_mono x y d he ?_ ?_ hq ?_ ?_
    · intro p h
      unfold Slice.settledSet at h ⊢
      simp only [Bool.and_eq_true, List.all_eq_true] at h ⊢
      refine ⟨fun w hw => ?_, fun j hjm => ?_⟩
      · cases hh : (x.getSet p).ways[w]
        · rfl
        · rfl
        · obtain ⟨t, h', e⟩ := hd p w _ _ hh
          have := h.1 w hw
          rw [e] at this; exact this
      · by_cases hji : j = i
        · subst hji; rw [hf]; rfl
        · have := h.2 j hjm
          rw [hj j hji] at this; exact this
    · intro h
      unfold Slice.noEngineOps at h ⊢
      rw [hs, List.all_append, Bool.and_eq_true] at h
      exact h.1
    · intro h
      unfold Slice.atRest at h
      have h2 := (Bool.and_eq_true _ _ ▸ h : _ ∧ _).1
      simp only [decide_eq_true_eq] at h2
      exfalso
      have h3 : y.freeRecords.length < 32 := by
        unfold Slice.freeRecords
        have := List.length_filter_lt_length_iff_exists (l := List.finRange 32) (p := fun i => decide (y.records[i].phase = .free))
        have h4 := this.2 ⟨i, List.mem_finRange i, by rw [hi]; simpa using hr⟩
        simpa using h4
      omega
    · intro h
      rw [hxe, hxf]; rfl

end Sys2Proof.Machine
end

