-- ==== Sys2Proof/Tests/Slice0.lean ====
section
/-!
SUPPORT. The model's own tests: the well-formedness smoke tests, the check values that the manual gives, a few single steps, and
for each statement of Certificates/Slice0/Obligations.lean that has hypotheses a state and operands that meet them, clause by
clause.
-/

namespace Sys2Proof.Machine

/-! ## Small states -/

/-- The state after reset with LUn changed. -/
def withLink (n : Agent) (f : LinkUnit → LinkUnit) : State := State.reset.updLink n f

/-- The state after reset with a message on the path from LU0 to slice 0, and that slice changed. -/
def withSent (m : SliceMsg) (f : Slice → Slice) : State :=
  (State.reset.updLink 0 fun u => { u with toSlice := u.toSlice.set 0 [m] }).updSlice 0 f

/-- The state after reset with a message on the path from slice 3 to LU7, which stands in a link state. -/
def withReport (m : LinkMsg) (st : LinkState) (f : LinkUnit → LinkUnit) : State :=
  (State.reset.updSlice 3 fun x => { x with toLink := x.toLink.set 7 [m] }).updLink 7 fun u => f { u with state := st, cls := .caching }

/-- The state after reset with a message on the command path to slice 0, and that slice changed. -/
def withCommand (m : CommandMsg) (f : Slice → Slice) : State :=
  (State.reset.updMgmt fun g => { g with cmdPath := g.cmdPath.set 0 [m] }).updSlice 0 f

/-- The state after reset with the quiesce controller changed. -/
def withQuiesce (f : QuiesceController → QuiesceController) (s : State) : State :=
  s.updMgmt fun m => { m with quiesce := f m.quiesce }

/-- The state after reset with the clear done and one operation of slice 0 in the memory request queue. -/
def withOp (op : MemOp) : State :=
  State.reset.updMem fun m => { m with queue := [⟨op, 0⟩], dram := { m.dram with clearRunning := false, clearPosition := 2 ^ 27 } }

/-- A caching link unit in a session state. -/
def inSession (st : LinkState) (u : LinkUnit) : LinkUnit := { u with state := st, cls := .caching }

/-- A slice with record 0 in use. -/
def withRecord (f : Record → Record) (x : Slice) : Slice :=
  { x with records := x.records.set 0 (f { Record.free with phase := .gather, originator := .agent 0 0 }) }

/-- A slice in which line 0 has an entry, in way 7 of set 0. -/
def withEntry (e : Entry) (x : Slice) : Slice := x.putSet 0 ⟨(Vector.replicate 8 .empty).set 7 (.occupied 0 e), [7]⟩

/-- A slice whose wait queue is full, every waiter naming line 1. -/
def withFullQueue (x : Slice) : Slice := { x with waitQueue := List.replicate 48 ⟨.agent 1 0, .snapshot, 1#28, none⟩ }

/-- 64 bytes of one value. -/
def bytesOf (b : Byte) : LineData := Vector.replicate 64 b

/-- The command answers a next state of which `p` holds. -/
def answers (c : Instr) (s : State) (p : State → Bool) : Bool :=
  match exec c s with
  | .next t => p t
  | .fault _ => false
  | .refused _ => false

/-! ## Well-formedness: an ill-formed term for each check is refused -/

theorem test_wf_command_code : exec (.undefinedCommandCode 5 0) State.reset = .refused .illFormed := rfl
theorem test_wf_configuration_offset : exec (.configurationWrite 0x14 0) State.reset = .refused .illFormed := rfl
theorem test_wf_offset_without_effect : exec (.registerWriteNoEffect 0x04 0) State.reset = .refused .illFormed := rfl
theorem test_wf_short_write_empty : exec (.shortWrite 0 []) State.reset = .refused .illFormed := rfl
theorem test_wf_short_write_long : exec (.shortWrite 0 [0, 0, 0, 0]) State.reset = .refused .illFormed := rfl

/-- A FetchShared of 8 bytes has its form; with 9 bytes it fails the form test. -/
theorem test_wf_form_test : exec (.messageFailingFormTest 0 (.arriving ⟨.request, 1, 8⟩)) State.reset = .refused .illFormed
    ∧ (Instr.messageFailingFormTest 0 (.arriving ⟨.request, 1, 9⟩)).wf = true := ⟨rfl, by decide⟩

/-! ## Values that the manual gives -/

/-- The check value of R211: the register after the nine bytes 0x31 to 0x39. -/
theorem test_crc : crc [0x31, 0x32, 0x33, 0x34, 0x35, 0x36, 0x37, 0x38, 0x39] = 0x29B1#16 := by decide +kernel

/-- The address function at a line with mixed bits, and back (R3, R4). -/
theorem test_address : sliceOf 0x0123457#28 = 1 ∧ setOf 0x0123457#28 = 1301 ∧ tagOf 0x0123457#28 = 145#15
    ∧ lineOf 1 1301 145#15 = 0x0123457#28 := by decide +kernel

theorem test_handle : handleOf 3 31 = 127 ∧ handleSlice 127 = 3 ∧ handleIdx 127 = 31 := by decide +kernel

/-- FetchShared of line 0x0000003 with tag 5 (12.1): kind 0x01, tag in bits 9:6, line in bits 51:24. -/
theorem test_read_request : readRequest [0x41, 0x01, 0, 0x03, 0, 0, 0, 0] = .fetchShared ⟨5, 3#28⟩ := by decide +kernel

/-- GrantAck for handle 127 (12.1): kind 0x04, handle in bits 16:10. -/
theorem test_read_reply : readReply 2 [0x04, 0xFC, 0x01, 0, 0, 0, 0, 0] = .grantAck 2 127 := by decide +kernel

/-- Transfers of the management port: Detach(1), the alert mask, an offset, three data bytes (R197, 12.4). -/
theorem test_write_transfer : writeTransfer [0x10, 0x11, 0, 0, 0] = some (.detach 1) ∧ writeTransfer [0x08, 1, 2, 0, 0, 9] = some (.configurationWrite 0x08 0x201)
    ∧ writeTransfer [0x24] = some (.offsetWrite 0x24) ∧ writeTransfer [0x04, 1, 2, 3] = some (.shortWrite 0x04 [1, 2, 3]) := by decide +kernel

/-- What a read at offset 0x04 returns after reset, byte by byte (R197). -/
theorem test_read_transfer : (State.reset.setOffset 0x04).readTransfer 5 = [0xFF, 0x01, 0x14, 0x14, 0] := by decide +kernel

/-- Hypotheses of TheRegisterWindowAfterReset: the counters of agents 0 and 7, and an offset that is none. -/
theorem test_hyp_register_window : BitVec.ofNat 8 (0x80 + 8 * (7 : Agent).val) = 0xB8#8
    ∧ ∀ n : Agent, (0x84#8 : BitVec 8) ≠ BitVec.ofNat 8 (0x80 + 8 * n.val) := by decide

theorem test_configuration_at_reset : State.reset.readRegister 0x04 = 0x141401FF#32 := by decide +kernel

/-! ## Single steps -/

theorem test_step_command : step { State.reset with pending := [.offsetWrite 0x18] } = exec (.offsetWrite 0x18) State.reset := rfl

/-- A FetchOwned of an ABSENT line, with record 31 the only FREE one, reserves way 0 of its set and orders a read. -/
theorem test_fetch_owned_reserves :
    answers (.requestArrival 0 0)
      (withSent (.request .fetchOwned 0 0 none) fun x =>
        { x with records := (Vector.replicate 32 { Record.free with phase := .confirm, line := 4#28 }).set 31 Record.free })
      (fun t => (t.slices[0].getSet 0).ways[0] = .reserved 0 31 ∧ t.slices[0].submission = [⟨.read 0 31, .record 31⟩]) := by
  decide +kernel

/-- A full write of a line is read back, in the canonical form. -/
theorem test_write_read :
    let d : Dram := (withOp (.poisonWrite 0)).mem.dram.writeLine 5 (bytesOf 7) true
    d.readByte 320 = 7 ∧ d.readByte 383 = 7 ∧ d.readByte 319 = 0 ∧ d.readByte 384 = 0 ∧ d.marked 5 = true ∧ Memory.wf d = true := by
  decide +kernel

/-- Storing zeros lists nothing. -/
theorem test_write_zeros : (withOp (.poisonWrite 0)).mem.dram.writeLine 5 zeroLine false = (withOp (.poisonWrite 0)).mem.dram := by
  decide +kernel

/-- A fenced agent's link goes down, its record of the fault is kept over a second fault, and both are counted. -/
theorem test_second_fault_counted :
    ((((withLink 3 (inSession .online)).takeCause 3 ⟨.linkLost, none, none, none⟩).takeCause 3 ⟨.timeout, none, some 9, none⟩).links[3].faultCount = 2)
    ∧ (((withLink 3 (inSession .online)).takeCause 3 ⟨.linkLost, none, none, none⟩).takeCause 3 ⟨.timeout, none, some 9, none⟩).links[3].faultRecord
      = some ⟨.linkLost, none, none, none⟩ := by decide +kernel

/-- What waits in the request channel at a fence is discarded and counted there, and ReleaseFence changes no counter (R132, R168, log 10). -/
theorem test_fence_discards :
    answers (.fence 3) (withLink 3 fun u => { inSession .online u with requestChannel := [.depart, .hello ⟨1, 1⟩], discarded := 5 }) fun t =>
      t.links[3].discarded = 7 ∧ t.links[3].requestChannel = []
        ∧ answers (.releaseFence 3) ((t.updLink 3 fun u => { u with state := .fencedSwept }).updMgmt fun m => { m with running := false })
          fun v => v.links[3].discarded = 7 ∧ v.links[3].state = .offline := by decide +kernel

/-! ## Statements' hypotheses are met: the machine and the link units -/

/-- Hypotheses of AnIdleStepPassesOneMillisecond. -/
theorem test_hyp_idle : State.reset.pending = [] := rfl

/-- Hypotheses of WellFormedCommandsRun. -/
theorem test_hyp_wf : (Instr.undefinedCommandCode 0 0).wf = true ∧ (Instr.undefinedCommandCode 9 0).wf = true
    ∧ (Instr.undefinedCommandCode 8 0).wf = false ∧ (Instr.shortWrite 0 [0, 0, 0]).wf = true := by decide

/-- Hypotheses of TheAddressFunctionIsInvertible. -/
theorem test_hyp_address : (0 < 2048) ∧ (2047 < 2048) := by decide

theorem test_next_value (x : BitVec 16) : x + 1#16 ≠ x := by
  intro h
  have := congrArg (· - x) h
  simp at this

/-- A message whose check is right, and one whose check is wrong. Hypotheses of TheDataCheckIsTheCrc. -/
theorem test_hyp_check (d : LineData) : (⟨5, 0, ⟨d, false⟩, dataCheck d⟩ : DirtyMsg).check = dataCheck d
    ∧ (⟨5, 0, ⟨d, false⟩, dataCheck d + 1#16⟩ : DirtyMsg).check ≠ dataCheck d := ⟨rfl, test_next_value _⟩

/-- The last line of the pool, the last tag, one tag place left; the message arrives, or has waited. -/
def lastLine : LineAddr := 0x7FFFFFF#28

/-- Hypotheses of MessagesAreRoutedToTheirSlice. -/
theorem test_hyp_routed :
    (∃ s : State, s.resetPin = .released ∧ s.links[(7 : Agent)].state = .online ∧ s.links[(7 : Agent)].reservations < 16
      ∧ s.links[(7 : Agent)].tags[(15 : Tag)] = false ∧ lastLine.toNat < s.poolLines ∧ s.links[(7 : Agent)].cls = .caching
      ∧ s.links[(7 : Agent)].presents (.arriving (.fetchShared ⟨15, lastLine⟩)) (.fetchShared ⟨15, lastLine⟩) [])
    ∧ ∃ s : State, s.resetPin = .released ∧ s.links[(7 : Agent)].state = .drainingSweeping ∧ s.links[(7 : Agent)].reservations < 16
      ∧ s.links[(7 : Agent)].tags[(15 : Tag)] = false ∧ lastLine.toNat < s.poolLines ∧ s.links[(7 : Agent)].cls = .caching
      ∧ s.links[(7 : Agent)].presents .waiting (.returnClean ⟨15, lastLine⟩) [.depart] := by
  refine ⟨⟨withLink 7 fun u => { inSession .online u with reservations := 15 }, ?_⟩,
    ⟨withLink 7 fun u => { inSession .drainingSweeping u with requestChannel := [.returnClean ⟨15, lastLine⟩, .depart] }, ?_⟩⟩
  all_goals unfold LinkUnit.presents; decide +kernel

/-- Hypotheses of MessagesAreRoutedToTheirSlice, the messages with data. -/
theorem test_hyp_routed_data (d : LineData) :
    (⟨0, 0, ⟨d, true⟩, dataCheck d⟩ : ReturnDirtyMsg).check = dataCheck d
    ∧ (⟨0, 0, ⟨⟨d, true⟩, 1#64⟩, maskedCheck ⟨⟨d, true⟩, 1#64⟩⟩ : MaskedWriteMsg).check = maskedCheck ⟨⟨d, true⟩, 1#64⟩ := ⟨rfl, rfl⟩

/-- Hypotheses of TheRequestChannelKeepsOrder. -/
theorem test_hyp_channel_order :
    ((withLink 7 (inSession .online)).links[(7 : Agent)].requestChannel = [])
    ∧ ((ReqMsg.snapshot ⟨0, 0⟩).tag ≠ none ∧ 16 ≤ (withLink 7 fun u => { inSession .online u with reservations := 16 }).links[(7 : Agent)].reservations)
    ∧ ((withLink 7 fun u => { u with requestChannel := [.depart] }).links[(7 : Agent)].requestChannel ≠ [])
    ∧ ((⟨.request, 0x3F, 8⟩ : MalformedMsg).channel = .request ∧ failsForm ⟨.request, 0x3F, 8⟩ = true) := by decide +kernel

/-- Hypotheses of FailedTestsDecideAMessage, a failed data check. -/
theorem test_hyp_failed_check (d : LineData) :
    (ReqMsg.returnDirty ⟨15, lastLine, ⟨d, false⟩, dataCheck d + 1#16⟩).checked = some false :=
  congrArg some (decide_eq_false (test_next_value _))

/-- Hypotheses of FailedTestsDecideAMessage. -/
theorem test_hyp_failed_tests :
    (withLink 7 fun u => { inSession .online u with consecutive := 14 }).links[(7 : Agent)].consecutive < 15
    ∧ (withLink 7 fun u => { inSession .online u with consecutive := 15 }).links[(7 : Agent)].consecutive = 15
    ∧ (ReqMsg.fetchShared ⟨15, lastLine⟩).checked ≠ some false
    ∧ AgentClass.noncaching.allows (.fetchShared ⟨15, lastLine⟩) = false ∧ AgentClass.caching.allows (.fetchShared ⟨15, lastLine⟩) = true
    ∧ (withLink 7 fun u => { inSession .online u with tags := u.tags.set 15 true }).links[(7 : Agent)].tags[(15 : Tag)] = true
    ∧ (withLink 7 (inSession .drainingSettling)).links[(7 : Agent)].state ≠ .online ∧ (ReqMsg.fetchShared ⟨15, 0⟩).isReturn = false
    ∧ State.reset.poolLines ≤ (0x8000000#28).toNat ∧ (ReqMsg.returnClean ⟨15, 0x8000000#28⟩).isReturn = true := by decide +kernel

/-- Hypotheses of AHelloIsAnswered. -/
theorem test_hyp_hello :
    (∃ s : State, s.resetPin = .released ∧ s.links[(7 : Agent)].state = .offline ∧ s.links[(7 : Agent)].heldHello = none
      ∧ s.links[(7 : Agent)].responses = [] ∧ s.links[(7 : Agent)].presents (.arriving (.hello ⟨1, 1⟩)) (.hello ⟨1, 1⟩) []
      ∧ s.mgmt.agentEnable.getLsbD (7 : Agent) = true ∧ s.mem.dram.clearRunning = true)
    ∧ ((withOp (.poisonWrite 0)).links[(7 : Agent)].state = .offline ∧ (withOp (.poisonWrite 0)).mem.dram.clearRunning = false)
    ∧ ((0 : BitVec 3) ≠ 1#3 ∧ (0 : BitVec 3) ≠ 2#3) ∧ ((0 : BitVec 4) ≠ 1#4)
    ∧ ((State.reset.updMgmt fun m => { m with agentEnable := 0x7F }).mgmt.agentEnable.getLsbD (7 : Agent) = false)
    ∧ ((withLink 7 fun u => { u with heldHello := some .caching }).links[(7 : Agent)].heldHello ≠ none)
    ∧ ∀ c ∈ [Control.welcome 0 0, .helloRefusedDisabled, .helloRefusedRevision],
      Outbound.control c ∈ (withLink 7 fun u => { u with responses := [.control c] }).links[(7 : Agent)].responses := by
  refine ⟨⟨State.reset, ?_⟩, ?_⟩
  · unfold LinkUnit.presents
    decide +kernel
  · decide +kernel

/-- Hypotheses of ADrainStarts. -/
theorem test_hyp_drain :
    (withLink 7 (inSession .online)).links[(7 : Agent)].presents (.arriving .depart) .depart []
    ∧ (withLink 7 fun u => { inSession .drainingSweeping u with requestChannel := [.flushDone] }).links[(7 : Agent)].presents .waiting .flushDone []
    ∧ (inSession .online { LinkUnit.initial with confirm := [0] }).confirm ≠ []
    ∧ (inSession .online { LinkUnit.initial with tags := (Vector.replicate 16 false).set 15 true }).tags[(15 : Tag)] = true
    ∧ (∀ t : Tag, LinkUnit.initial.tags[t] = false) := by
  unfold LinkUnit.presents
  decide +kernel

/-- Hypotheses of DiscardedAndRefusedMessages. -/
theorem test_hyp_discarded :
    ((withLink 7 (inSession .fencedSwept)).links[(7 : Agent)].state ∈ [LinkState.fencedSweeping, .fencedSwept]
      ∧ (withLink 7 (inSession .fencedSwept)).links[(7 : Agent)].requestChannel = [])
    ∧ (State.reset.links[(7 : Agent)].state = .offline ∧ State.reset.links[(7 : Agent)].heldHello = none)
    ∧ (failsForm ⟨.reply, 0x3F, 8⟩ = true)
    ∧ ((withLink 7 fun u => { u with heldHello := some .noncaching }).links[(7 : Agent)].state = .offline
      ∧ (withLink 7 fun u => { u with heldHello := some .noncaching }).links[(7 : Agent)].heldHello ≠ none)
    ∧ (ReqMsg.snapshot ⟨15, 0⟩).tag = some 15 ∧ failsForm ⟨.reply, 0x02, 9⟩ = true := by decide +kernel

/-- Hypotheses of AMalformedMessageFencesTheAgent. -/
theorem test_hyp_malformed : failsForm ⟨.request, 0x05, 8⟩ = true ∧ failsForm ⟨.reply, 0x01, 7⟩ = true
    ∧ (withLink 7 (inSession .drainingSettling)).links[(7 : Agent)].requestChannel = [] := by decide +kernel

/-- Hypotheses of RepliesAreForwardedByHandle. -/
theorem test_hyp_replies :
    (withLink 7 fun u => { inSession .online u with consecutive := 14 }).links[(7 : Agent)].consecutive < 15
    ∧ (withLink 7 fun u => { inSession .online u with consecutive := 15 }).links[(7 : Agent)].consecutive = 15
    ∧ ((withLink 7 fun u => { inSession .drainingSettling u with confirm := [127] }).links[(7 : Agent)].confirm.erase 127 = []
      ∧ ∀ t : Tag, (withLink 7 (inSession .drainingSettling)).links[(7 : Agent)].tags[t] = false) := by decide +kernel

/-- Hypotheses of ReportsBringTheirCause. -/
theorem test_hyp_reports :
    (withReport (.timeout 0) .online id).slices[(3 : SliceId)].toLink[(7 : Agent)] = [.timeout 0]
    ∧ (withReport (.fault .reply 1 none none) .online id).slices[(3 : SliceId)].toLink[(7 : Agent)] = [.fault .reply 1 none none]
    ∧ ((withReport .drainDone .online fun u => { u with fromController := [.discard, .flushTimeout] }).links[(7 : Agent)].fromController
      = [.discard] ++ .flushTimeout :: []) ∧ (.flushTimeout ∉ [ControllerMsg.discard]) := by decide +kernel

/-- Hypotheses of DeliveriesAndResponses. -/
theorem test_hyp_deliveries :
    (withReport (.response (.retry 15 .busy)) .online fun u => { u with responses := [.final (.writeDone 0)], probes := [⟨.peek, 0, 0⟩] }).links[(7 : Agent)].responses
      = [.final (.writeDone 0)]
    ∧ (withReport (.response (.grantShared 15 127 ⟨bytesOf 0, false⟩)) .fencedSwept id).slices[(3 : SliceId)].toLink[(7 : Agent)]
      = [.response (.grantShared 15 127 ⟨bytesOf 0, false⟩)]
    ∧ (withReport (.probe ⟨.peek, 0, 0⟩) .offline id).slices[(3 : SliceId)].toLink[(7 : Agent)] = [.probe ⟨.peek, 0, 0⟩]
    ∧ (withLink 7 fun u => { u with responses := [.final (.grantPromote 15 127)] }).links[(7 : Agent)].responses = [.final (.grantPromote 15 127)]
    ∧ (withLink 7 fun u => { u with responses := [.final (.grantPromote 15 127)] }).links[(7 : Agent)].state = .offline := by
  decide +kernel

/-- A Retry that reaches a fenced link is discarded and counted (R42, R153). -/
theorem test_discarded_retry_counted : answers (.finalResponseTaken 7 3) (withReport (.response (.retry 15 .busy)) .fencedSwept id) fun t =>
    t.links[7].retries = 1 ∧ t.links[7].responses = [] := by decide +kernel

/-- Hypotheses of DrainAndFenceReportsAreTaken. -/
theorem test_hyp_drain_reports :
    (∃ s : State, s.slices[(3 : SliceId)].toLink[(7 : Agent)] = [.response (.writeDone 15)] ∧ s.links[(7 : Agent)].state = .drainingSettling
      ∧ s.links[(7 : Agent)].confirm = [] ∧ (Response.writeDone 15).grantHandle = none
      ∧ ∀ t : Tag, t ≠ 15 → s.links[(7 : Agent)].tags[t] = false)
    ∧ (∃ s : State, s.slices[(3 : SliceId)].toLink[(7 : Agent)] = [.response (.returnDone 15)] ∧ s.links[(7 : Agent)].state = .drainingSweeping
      ∧ s.links[(7 : Agent)].slicesReported = 15#4 ∧ ∀ t : Tag, t ≠ 15 → s.links[(7 : Agent)].tags[t] = false)
    ∧ (∃ s : State, s.slices[(3 : SliceId)].toLink[(7 : Agent)] = [.drainDone] ∧ s.links[(7 : Agent)].state = .drainingSweeping
      ∧ s.links[(7 : Agent)].slicesReported ||| (1#4 <<< 3) = 15#4 ∧ ∀ t : Tag, s.links[(7 : Agent)].tags[t] = false)
    ∧ (∃ s : State, s.slices[(3 : SliceId)].toLink[(7 : Agent)] = [.fenceDone] ∧ s.links[(7 : Agent)].state = .fencedSweeping
      ∧ s.links[(7 : Agent)].slicesReported ||| (1#4 <<< 3) = 15#4)
    ∧ ((0#4 : BitVec 4) ||| (1#4 <<< 3) ≠ 15#4) :=
  ⟨⟨withReport (.response (.writeDone 15)) .drainingSettling fun u => { u with tags := u.tags.set 15 true }, by decide +kernel⟩,
    ⟨withReport (.response (.returnDone 15)) .drainingSweeping fun u => { u with tags := u.tags.set 15 true, slicesReported := 15 },
      by decide +kernel⟩,
    ⟨withReport .drainDone .drainingSweeping fun u => { u with slicesReported := 7 }, by decide +kernel⟩,
    ⟨withReport .fenceDone .fencedSweeping fun u => { u with slicesReported := 7 }, by decide +kernel⟩, by decide⟩

/-- Hypotheses of ControllerAndClearReports. -/
theorem test_hyp_controller_reports :
    ((withLink 7 fun u => { inSession .online u with fromController := [.flushRequest] }).links[(7 : Agent)].fromController
      = [] ++ .flushRequest :: [])
    ∧ Outbound.control .flushRequest ∉ (withLink 7 (inSession .online)).links[(7 : Agent)].responses
    ∧ ((withLink 7 fun u => { u with clearReport := true, heldHello := some .caching }).links[(7 : Agent)].clearReport = true)
    ∧ ((withLink 7 fun u => { u with clearReport := true }).links[(7 : Agent)].heldHello = none) := by decide +kernel

/-! ## Statements' hypotheses are met: the slices -/

/-- Hypotheses of NothingFollowsAtAStillSlice. -/
theorem test_hyp_still : Slice.initial.still (State.reset.env 0) := by
  unfold Slice.still
  decide +kernel

/-- Hypotheses of EntriesLoseTheirAgents. -/
theorem test_hyp_entries :
    (withEntry (.shared 0x81) Slice.initial).entryOf 0 = some (7, .shared 0x81) ∧ (0x81#8).getLsbD (7 : Agent) = true
    ∧ (0x81#8 ≠ 1#8 <<< (7 : Agent).val) ∧ (withEntry (.shared 0x80) Slice.initial).entryOf 0 = some (7, .shared (1#8 <<< (7 : Agent).val))
    ∧ (withEntry (.owned 7) Slice.initial).entryOf 0 = some (7, .owned 7)
    ∧ (withRecord (fun r => { r with line := 0x2000, victim := some 0 }) Slice.initial).holder 0 = some 0
    ∧ (withRecord (fun r => { r with kind := .promote }) Slice.initial).holder 0 = some 0
    ∧ (withRecord (fun r => { r with kind := .scrub }) Slice.initial).holder 0 = some 0
    ∧ (∀ i : RecIdx, ¬((withEntry (.owned 7) Slice.initial).records[i].phase ≠ .free)) := by decide +kernel

/-- Hypotheses of AnInspectReadsTheDirectory. -/
theorem test_hyp_inspect :
    (withCommand (.inspect 0) (withEntry (.owned 7))).slices[(0 : SliceId)].still (State.reset.env 0)
    ∧ (withCommand (.inspect 0) id).mgmt.cmdPath[(0 : SliceId)] = .inspect 0 :: []
    ∧ (Slice.initial.withWay 0 7 (.reserved 0 127)).reservationOf 0 = some (7, 127)
    ∧ (Slice.initial.withWay 0 7 (.reserved 0 127)).entryOf 0 = none := by
  unfold Slice.still
  decide +kernel

/-- Hypotheses of RequestsThatDoNotStartAtArrival. -/
theorem test_hyp_arrival :
    (withSent (.request .snapshot 15 0 none) fun x => { x with fenced := 1 }).slices[(0 : SliceId)].fenced.getLsbD (0 : Agent) = true
    ∧ (withSent (.request .snapshot 15 0 none) fun x => { x with draining := 1 }).slices[(0 : SliceId)].draining.getLsbD (0 : Agent) = true
    ∧ (withQuiesce (fun q => { q with state := .quiesced }) (withSent (.request .snapshot 15 0 none) id)).mgmt.quiesce.state ≠ .normal
    ∧ (withSent (.request .snapshot 15 0 none) (withRecord id)).slices[(0 : SliceId)].records[(0 : RecIdx)].line = 0
    ∧ (withSent (.request .snapshot 15 0 none) fun x => { x with waitQueue := (withFullQueue x).waitQueue.tail }).slices[(0 : SliceId)].waitQueue.length < 48
    ∧ 48 ≤ (withSent (.request .snapshot 15 1 none) withFullQueue).slices[(0 : SliceId)].waitQueue.length := by decide +kernel

/-- A slice whose wait queue is full behind a record that awaits its owner, and nothing follows in it. -/
theorem test_hyp_full_queue :
    (withFullQueue (withRecord (fun r => { r with line := 1, waits := [⟨7, .owner, .peek, .awaitingReply⟩] }) Slice.initial)).still (State.reset.env 0) := by
  unfold Slice.still
  decide +kernel

/-- The common hypotheses of a request that starts, for a line in each directory state. Hypotheses of ARequestThatReadsMemoryStarts, ARequestForAnOwnedLineProbesTheOwner and AStartThatAnswersAtOnce. -/
theorem test_hyp_start :
    ∀ f ∈ [withEntry (.owned 7), withEntry (.owned 0), withEntry (.shared 1), withEntry (.shared 0x80), id],
      let s := withSent (.request .fetchShared 15 0 none) f
      let x := s.slices[(0 : SliceId)]
      s.resetPin = .released ∧ s.links[(0 : Agent)].toSlice[(0 : SliceId)] = [.request .fetchShared 15 0 none]
        ∧ x.findEviction = none ∧ x.arbitrate (s.env 0) = none ∧ x.progressAny (s.env 0) = none ∧ x.engineAct (s.env 0) = none
        ∧ s.mgmt.quiesce.state = .normal ∧ x.fenced.getLsbD (0 : Agent) = false ∧ x.draining.getLsbD (0 : Agent) = false
        ∧ (∀ i : RecIdx, x.records[i] = Record.free) ∧ x.waitQueue = [] ∧ x.reservationOf 0 = none ∧ (∀ i : RecIdx, x.noOps i = true)
        ∧ x.fenced.getLsbD (7 : Agent) = false := by decide +kernel

/-- Hypotheses of the same three statements, on the entry, the way and the mask. -/
theorem test_hyp_start_entries :
    (∀ w b, Slice.initial.entryOf 0 ≠ some (w, .owned b)) ∧ (Slice.initial.getSet 0).findEmpty = some 0
    ∧ (Slice.initial.withWay 0 0 (.occupied 5 (.owned 1))).entryOf 0 = none
    ∧ ((Slice.initial.withWay 0 0 (.occupied 5 (.owned 1))).getSet 0).findEmpty = some 1
    ∧ (⟨⟨bytesOf 0, false⟩, 1#64 <<< 63⟩ : WriteData).mask ≠ 0#64
    ∧ (withEntry (.shared 0x81) Slice.initial).entryOf 0 = some (7, .shared 0x81)
    ∧ (0x81#8).getLsbD (0 : Agent) = true ∧ (0x81#8 &&& ~~~(1#8 <<< (0 : Agent).val)) ≠ 0#8 ∧ (0x80#8).getLsbD (0 : Agent) = false
    ∧ (withEntry (.shared 1) Slice.initial).entryOf 0 = some (7, .shared (1#8 <<< (0 : Agent).val))
    ∧ (withEntry (.shared 0x80) Slice.initial).entryOf 0 = some (7, .shared (1#8 <<< (7 : Agent).val))
    ∧ { withEntry (.owned 7) Slice.initial with fenced := 0x80 }.fenced.getLsbD (7 : Agent) = true := by decide +kernel

/-- A slice without records whose directory lists at most line 0, with an entry in way 7. -/
def fencedEntry (e : Entry) (a : AgentSet) : Slice := { withEntry e Slice.initial with fenced := a }

theorem fencedEntry_getSet (e : Entry) (a : AgentSet) (p : Nat) :
    (fencedEntry e a).getSet p = if p = 0 then ⟨(Vector.replicate 8 .empty).set 7 (.occupied 0 e), [7]⟩ else DirSet.empty := by
  have hne : (⟨(Vector.replicate 8 .empty).set 7 (.occupied 0 e), [7]⟩ : DirSet) ≠ DirSet.empty := by
    intro h
    exact absurd (congrArg DirSet.recency h) (by simp [DirSet.empty])
  simp only [fencedEntry, withEntry, Slice.getSet, Slice.putSet, Slice.initial, Sparse.put, if_neg hne, Sparse.get]

theorem fencedEntry_way (e : Entry) (a : AgentSet) (p : Nat) (w : WayIdx) :
    ((fencedEntry e a).getSet p).ways[w] = if p = 0 ∧ w = 7 then .occupied 0 e else .empty := by
  rw [fencedEntry_getSet]
  by_cases hp : p = 0
  · have h : ∀ w : WayIdx, ((Vector.replicate 8 Way.empty).set 7 (.occupied 0 e))[w] = if w = 7 then .occupied 0 e else .empty := by
      intro w
      fin_cases w <;> rfl
    simpa [hp] using h w
  · have h : ∀ w : WayIdx, DirSet.empty.ways[w] = .empty := by decide
    simpa [hp] using h w

/-- Hypotheses of ARequestThatReadsMemoryStarts, the consistent directory of a fenced sharer's line. -/
theorem test_hyp_consistent : (fencedEntry (.shared 0x80) 0x80).directoryConsistent 0 := by
  have hw := fencedEntry_way (.shared 0x80) 0x80
  have hf : ∀ i : RecIdx, (fencedEntry (.shared 0x80) 0x80).records[i].phase = .free
      ∧ (fencedEntry (.shared 0x80) 0x80).records[i].plan = .none := by decide +kernel
  refine ⟨by decide +kernel, ?_, ?_, ?_, ?_, ?_, ?_⟩
  · intro p v w t h1 h2
    unfold Way.carries at h1 h2
    rw [hw] at h1 h2
    by_cases hv : p = 0 ∧ v = 7 <;> by_cases hw' : p = 0 ∧ w = 7 <;> simp_all
  · intro p
    refine ⟨?_, fun w => ?_⟩
    · rw [fencedEntry_getSet]
      split <;> decide
    · rw [hw, fencedEntry_getSet]
      by_cases hp : p = 0 <;> by_cases h7 : w = 7 <;> simp [hp, h7, DirSet.empty]
  · intro p w t h hr
    rw [hw] at hr
    split at hr <;> cases hr
  · intro i v hi
    exact absurd (hf i).1 hi
  · intro p w t a h
    rw [hw] at h
    split at h
    · simp only [Way.occupied.injEq, Entry.shared.injEq] at h
      rw [← h.2]; decide
    · cases h
  · intro i a h
    rw [(hf i).2] at h
    cases h

/-- Hypotheses of the same statements, where the agent that the entry names is fenced, and of a MaskedWrite. -/
theorem test_hyp_start_fenced :
    ∀ e ∈ [Entry.shared 0x80, .owned 7], ∀ k ∈ [Kind.fetchOwned, .maskedWrite],
      let s := withSent (.request k 15 0 (some ⟨⟨bytesOf 0, true⟩, 1#64⟩)) fun _ => fencedEntry e 0x80
      let x := s.slices[(0 : SliceId)]
      x = fencedEntry e 0x80 ∧ x.findEviction = none ∧ x.arbitrate (s.env 0) = none ∧ x.progressAny (s.env 0) = none
        ∧ x.engineAct (s.env 0) = none ∧ x.entryOf 0 = some (7, e) ∧ x.fenced.getLsbD (0 : Agent) = false
        ∧ x.fenced.getLsbD (7 : Agent) = true := by decide +kernel

/-- A full set of eight shared lines, way 0 the least recently granted. -/
def fullSet : DirSet := ⟨Vector.ofFn fun w => .occupied (BitVec.ofNat 15 (w.val + 1)) (.shared 0x80), [7, 6, 5, 4, 3, 2, 1, 0]⟩

/-- A caching record at its start, for line 0, whose set is full. -/
def atFullSet : Slice := (withRecord (fun r => { r with kind := .fetchOwned }) Slice.initial).putSet 0 fullSet

/-- Hypotheses of AFullSetGivesUpAVictim. -/
theorem test_hyp_victim :
    (atFullSet.records[(0 : RecIdx)].phase = .gather ∧ atFullSet.records[(0 : RecIdx)].finished = false
      ∧ atFullSet.records[(0 : RecIdx)].waits = [] ∧ atFullSet.records[(0 : RecIdx)].victim = none
      ∧ atFullSet.records[(0 : RecIdx)].victimWaits = [] ∧ atFullSet.records[(0 : RecIdx)].deadline = .stopped)
    ∧ (∀ w : WayIdx, (atFullSet.getSet 0).ways[w] ≠ .empty) ∧ ((atFullSet.getSet 0).recency = [7, 6, 5, 4, 3, 2, 1] ++ 0 :: [])
    ∧ ((atFullSet.getSet 0).ways[(0 : WayIdx)] = .occupied 1 (.shared (1#8 <<< (7 : Agent).val)))
    ∧ (atFullSet.held (lineOf 0 0 1) = false) ∧ (atFullSet.fenced.getLsbD (7 : Agent) = false) := by decide +kernel

/-- A FetchOwned of line 0 that reads memory, its victim line 0x2000 in way 7 of the same set. -/
def evicting (q : WaitState) (x : Slice) : Slice :=
  (withRecord (fun r =>
    { r with kind := .fetchOwned, memRead := true, victim := some 0x2000#28, victimWaits := [⟨0, .sharer, .revoke, q⟩], plan := .grantOwned })
    x).putSet 0 ⟨(Vector.replicate 8 .empty).set 7 (.occupied 1 (.shared 1)), [7]⟩

/-- Hypotheses of AFullSetGivesUpAVictim, the eviction and its completion. -/
theorem test_hyp_eviction :
    (let s := withSent (.reply (handleOf 0 0) 0x2000#28 .clean) (evicting .awaitingReply)
      let x := s.slices[(0 : SliceId)]
      x.findEviction = none ∧ x.arbitrate (s.env 0) = none ∧ x.progressAny (s.env 0) = none ∧ x.engineAct (s.env 0) = none
        ∧ x.entryOf 0x2000#28 = some (7, .shared 1) ∧ x.holder 0x2000#28 = some 0 ∧ x.waitQueue = [] ∧ x.engine.jobs = []
        ∧ x.engine.visit = .idle ∧ x.pendingQuiesce = none)
    ∧ (∀ q ∈ (evicting (.settled .clean) Slice.initial).records[(0 : RecIdx)].victimWaits, q.live = false)
    ∧ (∃ q ∈ (evicting .awaitingReply Slice.initial).records[(0 : RecIdx)].victimWaits, q.live = true) := by decide +kernel

/-- Hypotheses of AFullSetGivesUpAVictim, the arbiter: a waiter for a line that is not held behind one whose line is. -/
theorem test_hyp_arbiter :
    let x : Slice := { withRecord id Slice.initial with waitQueue := [⟨.agent 1 0, .snapshot, 0#28, none⟩, ⟨.agent 2 0, .snapshot, 8#28, none⟩] }
    x.held 0#28 = true ∧ x.held 8#28 = false ∧ x.records[(31 : RecIdx)].phase = .free := by decide +kernel

/-- The same set with every line held by a record: no way can be had. -/
theorem test_hyp_no_victim :
    let x := { atFullSet with records := Vector.ofFn fun i =>
      if i.val = 0 then atFullSet.records[0] else { Record.free with phase := .gather, line := lineOf 0 0 (BitVec.ofNat 15 i.val) } }
    x.records[(0 : RecIdx)].originator = .agent 0 0
    ∧ ∀ v ∈ (x.getSet 0).recency, ∀ tag e, (x.getSet 0).ways[v] = .occupied tag e → x.held (lineOf 0 0 tag) = true := by
  intro x
  refine ⟨rfl, fun v hv tag e h => ?_⟩
  have hall : ∀ w : WayIdx, (match (x.getSet 0).ways[w] with
      | .occupied t _ => x.held (lineOf 0 0 t)
      | _ => true) = true := by decide +kernel
  have := hall v
  rw [h] at this
  exact this

/-- Hypotheses of AReturnIsDecidedAtItsArrival. -/
theorem test_hyp_return :
    (∃ s : State, s.links[(0 : Agent)].toSlice[(0 : SliceId)] = .returned 15 0 (some ⟨bytesOf 1, false⟩) :: []
      ∧ s.slices[(0 : SliceId)].entryOf 0 = some (7, .owned 0) ∧ s.slices[(0 : SliceId)].still (s.env 0)
      ∧ (s.slices[(0 : SliceId)].submission.filter fun o => o.owner = .accepted).length = 15
      ∧ ∀ i : RecIdx, s.slices[(0 : SliceId)].records[i].phase = .free)
    ∧ (∃ s : State, s.links[(0 : Agent)].toSlice[(0 : SliceId)] = .returned 15 0 none :: []
      ∧ s.slices[(0 : SliceId)].entryOf 0 = some (7, .owned 0) ∧ s.slices[(0 : SliceId)].still (s.env 0)
      ∧ s.slices[(0 : SliceId)].holderOf 0 = some (0, false) ∧ s.slices[(0 : SliceId)].records[(0 : RecIdx)].gaveUp false 0 = false)
    ∧ (∃ s : State, s.links[(0 : Agent)].toSlice[(0 : SliceId)] = .returned 15 0 none :: []
      ∧ s.slices[(0 : SliceId)].still (s.env 0) ∧ s.slices[(0 : SliceId)].holderOf 0 = some (0, false)
      ∧ s.slices[(0 : SliceId)].records[(0 : RecIdx)].gaveUp false 0 = true)
    ∧ ∃ s : State, s.links[(0 : Agent)].toSlice[(0 : SliceId)] = .returned 15 0 (some ⟨bytesOf 1, false⟩) :: []
      ∧ 16 ≤ (s.slices[(0 : SliceId)].submission.filter fun o => o.owner = .accepted).length := by
  refine ⟨⟨withSent (.returned 15 0 (some ⟨bytesOf 1, false⟩)) fun x =>
      { withEntry (.owned 0) x with submission := List.replicate 15 ⟨.poisonWrite 4, .accepted⟩ }, ?_⟩,
    ⟨withSent (.returned 15 0 none) fun x => withEntry (.owned 0) (withRecord (fun r =>
      { r with kind := .snapshot, waits := [⟨0, .owner, .peek, .awaitingReply⟩] }) x), ?_⟩,
    ⟨withSent (.returned 15 0 none) fun x => withEntry (.owned 0) (withRecord (fun r =>
      { r with kind := .fetchShared, memRead := true, waits := [⟨0, .owner, .demote, .settled .clean⟩] }) x), ?_⟩,
    ⟨withSent (.returned 15 0 (some ⟨bytesOf 1, false⟩)) fun x =>
      { x with submission := List.replicate 16 ⟨.poisonWrite 4, .accepted⟩ }, ?_⟩⟩
  all_goals first
    | (unfold Slice.still; decide +kernel)
    | decide +kernel

/-- A slice whose record 0 has one wait, on the request line 0 or on the victim line 4. -/
def withWait (k : Kind) (victim : Bool) (q : Wait) (x : Slice) : Slice :=
  withRecord (fun r => if victim then { r with kind := k, victim := some 4, victimWaits := [q] } else { r with kind := k, waits := [q] }) x

/-- Hypotheses of AnAcceptedReturnIsAbsorbed. -/
theorem test_hyp_absorb :
    ∀ st ∈ [WaitState.awaitingReply, .awaitingReturn],
      (withWait .fetchShared false ⟨7, .owner, .demote, st⟩ Slice.initial).holderOf 0 = some (0, false)
      ∧ (withWait .fetchShared true ⟨7, .owner, .revoke, st⟩ Slice.initial).holderOf 4 = some (0, true)
      ∧ ((withWait .fetchShared true ⟨7, .owner, .revoke, st⟩ Slice.initial).records[(0 : RecIdx)].waitsOn true).find? (fun w => w.agent = 7)
        = some ⟨7, .owner, .revoke, st⟩ := by decide +kernel

/-- Hypotheses of AMatchedReplyMovesItsWait. -/
theorem test_hyp_replies_matched :
    ∀ k ∈ [Kind.fetchShared, .snapshot, .maskedWrite, .recall, .scrub], ∀ v ∈ [false, true],
      ∀ q ∈ [(⟨0, .sharer, .revoke, .awaitingReply⟩ : Wait), ⟨0, .owner, .revoke, .awaitingReply⟩, ⟨0, .owner, .revoke, .replyAfterReturn⟩],
        let x := withWait k v q Slice.initial
        x.fenced.getLsbD (0 : Agent) = false ∧ x.records[(0 : RecIdx)].phase = .gather
          ∧ (if v then x.records[(0 : RecIdx)].line ≠ 4 ∧ x.records[(0 : RecIdx)].victim = some 4 else x.records[(0 : RecIdx)].line = 0)
          ∧ (x.records[(0 : RecIdx)].waitsOn v).find? (fun w => w.agent = 0) = some q := by decide +kernel

/-- Hypotheses of AnUnmatchedReplyIsAFault. -/
theorem test_hyp_unmatched :
    (withSent (.reply 127 0 .gone) id).slices[(0 : SliceId)].still (State.reset.env 0)
    ∧ (withSent (.reply 0 0 .clean) (withWait .snapshot false ⟨0, .owner, .peek, .awaitingReturn⟩)).slices[(0 : SliceId)].still (State.reset.env 0)
    ∧ (Slice.initial.records[(31 : RecIdx)].phase ≠ .gather) := by
  unfold Slice.still
  decide +kernel

/-- A record in CONFIRM for a grant to agent 0. -/
def confirming (x : Slice) : Slice := withRecord (fun r => { r with phase := .confirm, kind := .fetchOwned }) x

/-- Hypotheses of AGrantAckEndsItsRecord. -/
theorem test_hyp_grant_ack :
    (withSent (.grantAck 0) confirming).slices[(0 : SliceId)].still (State.reset.env 0)
    ∧ (withSent (.grantAck 0) confirming).slices[(0 : SliceId)].records[(handleIdx 0 : RecIdx)].phase = .confirm
    ∧ (withSent (.grantAck 0) confirming).slices[(0 : SliceId)].records[(handleIdx 0 : RecIdx)].originator = .agent 0 0
    ∧ (withSent (.grantAck 0) confirming).slices[(0 : SliceId)].noOps 0 = true
    ∧ (withSent (.grantAck 0) confirming).slices[(0 : SliceId)].reservationOf 0 = none
    ∧ (withSent (.grantAck 127) id).slices[(0 : SliceId)].records[(handleIdx 127 : RecIdx)].phase ≠ .confirm := by
  unfold Slice.still
  decide +kernel

/-- Hypotheses of TimersExpireAtTheirTime. -/
theorem test_hyp_timers :
    (let x := withRecord (fun r => { r with phase := .confirm, deadline := .running 0 }) Slice.initial;
      x.findEviction = none ∧ x.progressAny (State.reset.env 0) = none ∧ x.records[(handleIdx 0 : RecIdx)].deadline = .running 0)
    ∧ (0 ≤ State.reset.now) ∧ (State.reset.now < 1)
    ∧ (withQuiesce (fun q => { q with state := .flushing, timer := some 0 }) State.reset).mgmt.quiesce.timer = some 0 := by decide +kernel

/-- A FetchShared of an ABSENT line that waits for its read alone, its reservation in way 7. -/
def reading (p : Plan) : State :=
  ((State.reset.updMem fun m => { m with completions := [⟨0, 0, ⟨bytesOf 9, true⟩⟩] }).updSlice 0 fun x =>
    (withRecord (fun r => { r with kind := .fetchShared, memRead := true, plan := p }) x).withWay 0 7 (.reserved 0 0))

/-- Hypotheses of AReadCompletionFillsTheBuffer. -/
theorem test_hyp_grant :
    ∀ p ∈ [Plan.grantOwned, .grantShared 1],
      let s := reading p
      let x := s.slices[(handleSlice 0 : SliceId)]
      s.mem.completions = [⟨0, 0, ⟨bytesOf 9, true⟩⟩] ∧ x.findEviction = none ∧ x.arbitrate (s.env 0) = none ∧ x.progressAny (s.env 0) = none
        ∧ x.engineAct (s.env 0) = none ∧ x.records[(handleIdx 0 : RecIdx)].phase = .gather ∧ x.records[(handleIdx 0 : RecIdx)].plan = p
        ∧ x.records[(handleIdx 0 : RecIdx)].memRead = true ∧ x.records[(handleIdx 0 : RecIdx)].originator = .agent 0 0
        ∧ x.entryOf 0 = none ∧ x.reservationOf 0 = some (7, 0) := by decide +kernel

/-- The grant is sent, the reservation becomes the entry, and the record is in CONFIRM (R60, R61). -/
theorem test_grant :
    answers (.memoryReadCompletion 0) (reading .grantOwned) fun t =>
      t.slices[0].toLink[0] = [.response (.grantOwned 0 0 ⟨bytesOf 9, true⟩)] ∧ t.slices[0].entryOf 0 = some (7, .owned 0)
        ∧ t.slices[0].records[0].phase = .confirm ∧ t.slices[0].records[0].deadline = .running 20 := by decide +kernel

/-- A Promote of agent 0 for line 0 whose Revokes agent 1 has not answered. -/
def promoting (q : WaitState) (x : Slice) : Slice :=
  withEntry (.shared 3) (withRecord (fun r => { r with kind := .promote, plan := .grantPromote, waits := [⟨1, .sharer, .revoke, q⟩] }) x)

/-- The state after reset with agent 1's Clean reply to record 0 on the path to slice 0. -/
def cleaned (f : Slice → Slice) : State :=
  (State.reset.updLink 1 fun u => { u with toSlice := u.toSlice.set 0 [.reply 0 0 .clean] }).updSlice 0 f

/-- Hypotheses of AReadCompletionFillsTheBuffer, the promotion. -/
theorem test_hyp_promotion :
    (let s := cleaned (promoting .awaitingReply)
      let x := s.slices[(0 : SliceId)]
      x.findEviction = none ∧ x.arbitrate (s.env 0) = none ∧ x.progressAny (s.env 0) = none ∧ x.engineAct (s.env 0) = none
        ∧ s.links[(1 : Agent)].toSlice[(0 : SliceId)] = .reply (handleOf 0 0) 0 .clean :: [] ∧ x.fenced.getLsbD (1 : Agent) = false
        ∧ x.entryOf 0 = some (7, .shared 3))
    ∧ (∀ q ∈ (promoting (.settled .clean) Slice.initial).records[(0 : RecIdx)].waits, q.live = false) := by decide +kernel

/-- GrantPromote is sent at the last Clean, and the entry is OWNED (R54, R60). -/
theorem test_promotion :
    answers (.replyClean 0 1) (cleaned (promoting .awaitingReply)) fun t =>
      t.slices[0].toLink[0] = [.response (.grantPromote 0 0)] ∧ t.slices[0].entryOf 0 = some (7, .owned 0) := by decide +kernel

/-- Hypotheses of SnapshotsAndMaskedWritesGoOn. -/
theorem test_hyp_snapshot_and_write :
    (let r := (withRecord (fun r => { r with kind := .snapshot, buffer := some ⟨⟨bytesOf 1, false⟩, .memory⟩ }) Slice.initial).records[(0 : RecIdx)];
      r.phase = .gather ∧ r.finished = false ∧ r.awaits = false ∧ r.memRead = false ∧ r.originFenced = false)
    ∧ (let r := (withRecord (fun r => { r with kind := .maskedWrite, write := some ⟨⟨bytesOf 1, false⟩, 1⟩ }) Slice.initial).records[(0 : RecIdx)];
      r.ordered = false ∧ r.baseKnown = true ∧ r.buffer = none)
    ∧ (let x := withRecord (fun r => { r with kind := .maskedWrite, ordered := true }) Slice.initial;
      x.records[(0 : RecIdx)].awaits = false ∧ x.noOps 0 = true)
    ∧ (BitVec.allOnes 64 ≠ 1#64) := by decide +kernel

/-- A record that has made its last act, with the waiters `q`. -/
def finishing (q : List Waiter) : Slice := { withRecord (fun r => { r with finished := true }) Slice.initial with waitQueue := q }

/-- Hypotheses of ARecordPassesOnAtItsEnd. -/
theorem test_hyp_end :
    (finishing []).records[(0 : RecIdx)].finished = true ∧ (finishing []).reservationOf 0 = none ∧ (finishing []).noOps 0 = true
    ∧ (finishing [⟨.agent 1 0, .snapshot, 8, none⟩, ⟨.agent 2 0, .snapshot, 0, none⟩]).waitQueue
      = [⟨.agent 1 0, .snapshot, 8, none⟩] ++ ⟨.agent 2 0, .snapshot, 0, none⟩ :: []
    ∧ ({ finishing [⟨.agent 1 0, .snapshot, 8, none⟩] with records := Vector.replicate 32 Record.free }).held 8 = false
    ∧ (finishing []).waitQueue = [] := by decide +kernel

/-- Hypotheses of ARecordPassesOnAtItsEnd, a record with its reservation and one whose originator is fenced. -/
theorem test_hyp_end_fenced :
    ((finishing []).withWay 0 7 (.reserved 0 0)).reservationOf 0 = some (7, handleOf 0 0)
    ∧ (let r := (withRecord (fun r =>
        { r with
          kind := .fetchOwned
          originFenced := true
          waits := [⟨7, .owner, .revoke, .settled .dirty⟩]
          buffer := some ⟨⟨bytesOf 1, false⟩, .dirtyReply⟩ }) Slice.initial).records[(0 : RecIdx)];
      r.awaits = false ∧ r.memRead = false ∧ r.victim = none ∧ r.ordered = false
        ∧ ∃ q ∈ r.waits, q.role = .owner ∧ q.probe = .revoke ∧ q.state = .settled .dirty) := by decide +kernel

/-- Hypotheses of WaitsOnAFencedAgentAreSettled. -/
theorem test_hyp_fence_waits :
    ∀ k ∈ [Kind.fetchShared, .maskedWrite, .recall, .scrub], ∀ v ∈ [false, true],
      ∀ q ∈ [(⟨7, .sharer, .revoke, .awaitingReply⟩ : Wait), ⟨7, .owner, .revoke, .awaitingReply⟩, ⟨7, .owner, .revoke, .awaitingReturn⟩,
        ⟨7, .owner, .revoke, .replyAfterReturn⟩, ⟨7, .owner, .revoke, .settled .clean⟩],
        ((withWait k v q Slice.initial).records[(0 : RecIdx)].waitsOn v).find? (fun w => w.agent = 7) = some q := by decide +kernel

/-- Hypotheses of AFenceNoticeIsTaken and DrainAndReleaseNoticesAreTaken. -/
theorem test_hyp_notices :
    ∀ x ∈ [Notice.fence, .drain, .drainSweep],
      (withLink 7 fun u => { u with notices := u.notices.set 3 [x] }).links[(7 : Agent)].notices[(3 : SliceId)] = x :: [] := by decide +kernel

/-- Hypotheses of AFenceNoticeIsTaken, its records, and the release notice. -/
theorem test_hyp_fenced_records :
    (withRecord id Slice.initial).records[(0 : RecIdx)].isFrom 0 = true ∧ (withRecord id Slice.initial).records[(0 : RecIdx)].isFrom 7 = false
    ∧ (confirming Slice.initial).records[(0 : RecIdx)].phase = .confirm
    ∧ (withSent .release id).links[(0 : Agent)].toSlice[(0 : SliceId)] = .release :: [] := by decide +kernel

/-- Hypotheses of TheEngineWalks. -/
theorem test_hyp_engine :
    (let x : Slice := { Slice.initial.withWay 2047 7 (.reserved 0 31) with engine := ⟨2047, .travelling, [⟨.fence 7, 1, 0, false, false⟩], []⟩ };
      x.findEviction = none ∧ x.arbitrate (State.reset.env 0) = none ∧ x.progressAny (State.reset.env 0) = none
        ∧ x.engineAct (State.reset.env 0) = none ∧ (x.getSet x.engine.position).ways[(7 : WayIdx)] = .reserved 0 31)
    ∧ (∃ o ∈ ([⟨.poisonWrite 0, .engine⟩] : List Ordered), o.owner = .engine)
    ∧ (∀ o ∈ ([⟨.poisonWrite 0, .record 0⟩] : List Ordered), o.owner ≠ .engine)
    ∧ ((⟨.fence 7, 0, 0, false, false⟩ : Job).setsLeft = 0) := by decide +kernel

/-- A slice at set 0, whose line 0 a DRAIN job of agent 7 concerns. -/
def sweeping (v : VisitState) (pending : List LineAddr) (x : Slice) : Slice :=
  { withEntry (.shared 0x81) x with engine := ⟨0, v, [⟨.drain 7, 5, 0, true, false⟩], pending⟩ }

/-- Hypotheses of TheEngineWalks, the set's application and the line under examination. -/
theorem test_hyp_sweep :
    (∀ w : WayIdx, ((sweeping .waitingAtSet [] Slice.initial).getSet 0).ways[w] ∈ [Way.empty, .occupied 0 (.shared 0x81)])
    ∧ (∀ i : RecIdx, (sweeping .waitingAtSet [] Slice.initial).records[i].phase = .free)
    ∧ (let x := sweeping .waitingAtSet [] (withRecord (fun r => { r with kind := .snapshot }) Slice.initial); x.records[(0 : RecIdx)].phase ≠ .free
      ∧ setOf x.records[(0 : RecIdx)].line = x.engine.position ∧ x.records[(0 : RecIdx)].kind ≠ .recall)
    ∧ ((sweeping .waitingForRecord [0] Slice.initial).entryOf 0 = some (7, .shared 0x81) ∧ (0x81#8).getLsbD (7 : Agent) = true
      ∧ (sweeping .waitingForRecord [0] Slice.initial).held 0 = false)
    ∧ ((sweeping .waitingForRecord [0] (withRecord id Slice.initial)).held 0 = true)
    ∧ ((sweeping .waitingForRecord [4] Slice.initial).entryOf 4 = none) := by decide +kernel

/-- Hypotheses of TheEngineWalks, the jobs applied at a recall's start. -/
theorem test_hyp_recall_start : ∀ n : Agent, (0x80#8).getLsbD n = true ↔
    ∃ j ∈ (sweeping .waitingForRecord [0] Slice.initial).engine.jobs, j.applied = true ∧ j.kind = .drain n := by
  decide +kernel

/-- The recall of the drained sharer's line is counted at its job and revokes that agent alone (R125). -/
theorem test_recall_start :
    let x := Slice.startRecall (State.reset.env 0) 3 0 (sweeping .waitingForRecord [] Slice.initial)
    x.engine.jobs = [⟨.drain 7, 5, 1, true, false⟩] ∧ x.toLink[7] = [.probe ⟨.revoke, 3, 0⟩] ∧ x.toLink[0] = [] := by decide +kernel

/-- Under an applied QUIESCE job a recall is counted at a DRAIN job that joined late too (R125). -/
theorem test_recall_counts_late_drain :
    let x := Slice.startRecall (State.reset.env 0) 3 0 { withEntry (.shared 0x81) Slice.initial with
      engine := ⟨0, .waitingForRecord, [⟨.quiesce 1, 5, 0, true, false⟩, ⟨.drain 7, 2048, 0, false, true⟩], []⟩ }
    x.engine.jobs = [⟨.quiesce 1, 5, 1, true, false⟩, ⟨.drain 7, 2048, 1, false, true⟩]
      ∧ x.records[3].servesDrain = 0x80 ∧ x.records[3].servesQuiesce = true := by decide +kernel

/-- Hypotheses of TheEngineWalks, the DRAIN jobs of which one joined late. -/
theorem test_hyp_recall_jobs :
    let jobs : List Job := [⟨.quiesce 1, 5, 0, true, false⟩, ⟨.drain 7, 2048, 0, false, true⟩]
    (∀ n : Agent, (0#8).getLsbD n = true ↔ ∃ j ∈ jobs, j.applied = true ∧ j.kind = .drain n)
      ∧ (∀ n : Agent, (0x80#8).getLsbD n = true ↔ ∃ j ∈ jobs, j.kind = .drain n)
      ∧ ∃ j ∈ jobs, j.applied = true ∧ j.kind = .quiesce 1 := by
  refine ⟨by decide +kernel, by decide +kernel, ⟨.quiesce 1, 5, 0, true, false⟩, by decide⟩

/-- Hypotheses of TheEngineWalks, a recall's end: the directory of `fencedEntry`, and a recall without waits. -/
theorem test_hyp_recall_end :
    let x := withRecord (fun r => { r with kind := .recall, revokeSet := 1 }) (fencedEntry (.shared 0x81) 0x80)
    x.records[(0 : RecIdx)].awaits = false ∧ x.noOps 0 = true ∧ x.entryOf 0 = some (7, .shared 0x81)
      ∧ (0x81#8 &&& ~~~x.records[(0 : RecIdx)].revokeSet &&& ~~~x.fenced) = 0#8 := by decide +kernel

/-- The engine leaves the last set, and its job's walk is over. -/
theorem test_engine_wraps :
    (Slice.walkAct (State.reset.env 0) { Slice.initial with engine := ⟨2047, .leaving, [⟨.fence 7, 1, 0, true, false⟩], []⟩ }).map (fun x => x.engine)
      = some ⟨0, .idle, [⟨.fence 7, 0, 0, false, false⟩], []⟩ := by decide +kernel

/-- Hypotheses of QuiesceNoticesAndReports. -/
theorem test_hyp_quiesce_notices :
    (withCommand (.sweepStart 255) (withRecord fun r => { r with phase := .confirm })).mgmt.cmdPath[(0 : SliceId)] = .sweepStart 255 :: []
    ∧ (withCommand (.sweepStart 255) (withRecord fun r => { r with phase := .confirm })).slices[(0 : SliceId)].still (State.reset.env 0)
    ∧ (withCommand .withdrawal id).mgmt.cmdPath[(0 : SliceId)] = .withdrawal :: []
    ∧ (State.reset.updSlice 3 fun x => { x with toController := [255] }).slices[(3 : SliceId)].toController = 255 :: []
    ∧ ((7#4 ||| (1#4 <<< (3 : SliceId).val)) = 15#4) ∧ ((0#4 ||| (1#4 <<< (3 : SliceId).val)) ≠ 15#4) := by
  unfold Slice.still
  decide +kernel

/-- Hypotheses of QuiesceNoticesAndReports, the joining. -/
theorem test_hyp_quiesce_join :
    (let x : Slice := { Slice.initial with pendingQuiesce := some 255 }; x.walkAct (State.reset.env 0) = none ∧ x.engine.jobs = []
      ∧ (∀ i : RecIdx, x.records[i].phase = .free) ∧ x.waitQueue = [])
    ∧ (let x := (withCommand (.sweepStart 255) id).slices[(0 : SliceId)];
      x.dir = [] ∧ (∀ i : RecIdx, x.records[i] = Record.free) ∧ x.submission = [] ∧ x.engine = ⟨0, .idle, [], []⟩) := by decide +kernel

/-- Hypotheses of AScrubArrives. -/
theorem test_hyp_scrub :
    (withCommand (.scrub 0) id).mgmt.cmdPath[(0 : SliceId)] = .scrub 0 :: []
    ∧ (withCommand (.scrub 0) id).slices[(0 : SliceId)].still (State.reset.env 0)
    ∧ (withCommand (.scrub 0) (withRecord fun r => { r with phase := .confirm })).slices[(0 : SliceId)].still (State.reset.env 0)
    ∧ (∃ v ∈ (withFullQueue Slice.initial).waitQueue, v.line = 1) ∧ 48 ≤ (withFullQueue Slice.initial).waitQueue.length
    ∧ (withCommand (.scrub 0) (withEntry (.shared 0x81))).slices[(0 : SliceId)].still (State.reset.env 0)
    ∧ (withCommand (.scrub 0) (withEntry (.shared 0x81))).slices[(0 : SliceId)].entryOf 0 = some (7, .shared 0x81) := by
  unfold Slice.still
  decide +kernel

/-- A Scrub of line 0 whose Revoke agent 1 has not answered. -/
def scrubbing (x : Slice) : Slice :=
  withEntry (.owned 1) (withRecord (fun r =>
    { r with
      originator := .management
      kind := .scrub
      write := some ⟨⟨zeroLine, false⟩, BitVec.allOnes 64⟩
      waits := [⟨1, .owner, .revoke, .awaitingReply⟩] }) x)

/-- Hypotheses of AScrubArrives, the reply that it waits for. -/
theorem test_hyp_scrub_reply :
    (cleaned scrubbing).slices[(0 : SliceId)].still (State.reset.env 0)
    ∧ (cleaned scrubbing).slices[(0 : SliceId)].holder 0 = some 0 ∧ (cleaned scrubbing).slices[(0 : SliceId)].entryOf 0 = some (7, .owned 1) := by
  unfold Slice.still
  decide +kernel

/-! ## Statements' hypotheses are met: the memory channel, quiesce, the management port and the resets -/

/-- Hypotheses of TheQueueServesSlicesInTurn. -/
theorem test_hyp_submission :
    (∃ s : State, s.resetPin = .released ∧ (2 : SliceId) = s.mem.lastServed + 1 + 2
      ∧ (∀ j : Fin 4, j < 2 → s.slices[(s.mem.lastServed + 1 + j : SliceId)].submission = [])
      ∧ s.slices[(2 : SliceId)].submission = [⟨.poisonWrite 0, .engine⟩] ∧ s.mem.queue.length = 63)
    ∧ ∃ s : State, s.slices[(0 : SliceId)].submission = [⟨.poisonWrite 0, .engine⟩] ∧ 64 ≤ s.mem.queue.length :=
  ⟨⟨(State.reset.updMem fun m => { m with queue := List.replicate 63 ⟨.poisonWrite 0, 0⟩ }).updSlice 2 fun x =>
      { x with submission := [⟨.poisonWrite 0, .engine⟩] }, by decide +kernel⟩,
    ⟨(State.reset.updMem fun m => { m with queue := List.replicate 64 ⟨.poisonWrite 0, 0⟩ }).updSlice 0 fun x =>
      { x with submission := [⟨.poisonWrite 0, .engine⟩] }, by decide +kernel⟩⟩

/-- Hypotheses of AReadReturnsWhatTheCheckGave, AFullWriteStoresItsLine, AMergeWriteMergesTheLine and APoisonWriteMarksTheLine. -/
theorem test_hyp_performance :
    ∀ op ∈ [MemOp.read lastLine 127, .fullWrite lastLine ⟨bytesOf 1, true⟩, .mergeWrite lastLine (bytesOf 1) (BitVec.allOnes 64),
        .mergeWrite lastLine (bytesOf 1) 1, .poisonWrite lastLine],
      let s := withOp op
      s.resetPin = .released ∧ s.mem.dram.clearRunning = false ∧ Memory.wf s.mem.dram = true ∧ s.mem.queue = [] ++ ⟨op, 0⟩ :: []
        ∧ op.line = lastLine := by decide +kernel

/-- Hypotheses of the same four statements, on the ECC condition. -/
theorem test_hyp_ecc : eccUncorrectable (.uncorrectable (bytesOf 0)) = true ∧ eccUncorrectable .good = false
    ∧ eccUncorrectable .corrected = false := by decide

/-- A read of a line of the cleared pool completes with its 64 zero bytes. -/
theorem test_read : answers (.read lastLine .good) (withOp (.read lastLine 127)) fun t =>
    t.mem.completions = [⟨lastLine, 127, ⟨zeroLine, false⟩⟩] ∧ t.mem.queue = [] := by decide +kernel

/-- Hypotheses of TheClearCompletes. -/
theorem test_hyp_clear : State.reset.mem.dram.clearRunning = true ∧ State.reset.clearStoresNothing
    ∧ (State.reset.updMgmt fun m => { m with clearReport := true }).mgmt.clearReport = true :=
  ⟨rfl, fun _ => ⟨rfl, rfl, rfl⟩, rfl⟩

/-- Hypotheses of FlushDoneAndLinkStateReports. -/
theorem test_hyp_flush_done :
    (withLink 7 fun u => { u with flushDones := 1 }).links[(7 : Agent)].flushDones = 0 + 1
    ∧ ((0x80#8).getLsbD (7 : Agent) = true ∧ (0x80#8 &&& ~~~(1#8 <<< (7 : Agent).val)) = 0#8)
    ∧ ((0x81#8).getLsbD (7 : Agent) = true ∧ (0x81#8 &&& ~~~(1#8 <<< (7 : Agent).val)) ≠ 0#8)
    ∧ (withLink 7 fun u => { u with fromController := [.discard] }).links[(7 : Agent)].fromController = [] ++ .discard :: []
    ∧ (withLink 7 fun u => { u with reports := [⟨.offline, .unset⟩] }).links[(7 : Agent)].reports = ⟨.offline, .unset⟩ :: []
    ∧ (withQuiesce (fun q => { q with state := .flushing, flushPending := 0x81 }) State.reset).mgmt.quiesce.state = .flushing := by
  decide +kernel

/-- Hypotheses of AgentCommandsAreDecidedAtTheLinkUnit. -/
theorem test_hyp_agent_commands :
    State.reset.mgmt.running = false ∧ ((7 : Agent).val = (0xFFFFFFF#28).toNat % 8) ∧ ((0 : Agent).val = (0xFFFFFF8#28).toNat % 8)
    ∧ ∀ st ∈ [LinkState.offline, .online, .drainingSettling, .drainingSweeping, .fencedSweeping, .fencedSwept],
      (withLink 7 (inSession st)).links[(7 : Agent)].state = st := by decide +kernel

/-- Hypotheses of QuiesceAndResume. -/
theorem test_hyp_quiesce :
    (∀ n : Agent, (0#8).getLsbD n = true ↔
      (State.reset.mgmt.linkCopy[n].state ∈ [LinkState.online, .drainingSettling, .drainingSweeping] ∧ State.reset.mgmt.linkCopy[n].cls = .caching))
    ∧ (let s := State.reset.updMgmt fun m => { m with linkCopy := m.linkCopy.set 7 ⟨.drainingSweeping, .caching⟩ };
      ∀ n : Agent, (0x80#8).getLsbD n = true ↔
        (s.mgmt.linkCopy[n].state ∈ [LinkState.online, .drainingSettling, .drainingSweeping] ∧ s.mgmt.linkCopy[n].cls = .caching))
    ∧ State.reset.mgmt.quiesce.state = .normal
    ∧ ∀ st ∈ [QuiesceState.flushing, .sweeping, .quiesced], (withQuiesce (fun q => { q with state := st }) State.reset).mgmt.quiesce.state = st := by
  decide +kernel

/-- Hypotheses of TheCommandEngineCompletes. -/
theorem test_hyp_command_engine :
    lastLine.toNat < State.reset.poolLines ∧ State.reset.poolLines ≤ (0x8000000#28).toNat
    ∧ (State.reset.updMgmt fun m => { m with running := true }).mgmt.running = true
    ∧ ((withLink 7 fun u => { u with outcome := some .done }).links[(7 : Agent)].outcome = some .done
      ∧ ∀ m : Agent, m < 7 → (withLink 7 fun u => { u with outcome := some .done }).links[m].outcome = none)
    ∧ (let s := State.reset.updSlice 3 fun x => { x with toEngine := [⟨.noResource, none⟩] };
      s.slices[(3 : SliceId)].toEngine = [⟨.noResource, none⟩] ∧ (∀ n : Agent, s.links[n].outcome = none)
        ∧ ∀ k : SliceId, k < 3 → s.slices[k].toEngine = []) := by decide +kernel

/-- Hypotheses of RegisterWritesTakeTheirFields. -/
theorem test_hyp_registers : (0x14#8 ∉ [0x04#8, 0x08#8, 0x0C#8, 0x10#8]) ∧ ([0#8].length ∈ [1, 2, 3]) ∧ ([0#8, 0, 0].length ∈ [1, 2, 3])
    ∧ 0x4C#7 = 0x4C#7 + State.reset.addr.setWidth 7 ∧ 0x4D#7 ≠ 0x4C#7 + State.reset.addr.setWidth 7 := by decide

/-- The address, the offset and four data bytes are acknowledged, and the fifth data byte is not; at another address nothing is (R197). -/
theorem test_acknowledges : State.reset.writeAcknowledges 0x4C 6 = [true, true, true, true, true, true, false]
    ∧ State.reset.writeAcknowledges 0x4D 1 = [false, false] := by decide +kernel

/-- A zero timeout leaves its timeout as it was (R199). -/
theorem test_zero_timeout : answers (.configurationWrite 0x04 0x1E000100) State.reset fun t =>
    t.mgmt.responseTimeout = 20 ∧ t.mgmt.flushTimeout = 30 ∧ t.mgmt.agentEnable = 0 ∧ t.mgmt.exclusive = true := by decide +kernel

/-- Hypotheses of ResetsAndReleases and OtherCommandsLeaveTheDram. -/
theorem test_hyp_resets :
    State.reset.powerOnReset.resetPin = .powerOn ∧ State.reset.hardReset.resetPin = .hard
    ∧ (State.reset.hardReset.mem.dram.clearRunning = true ∧ State.reset.hardReset.mem.dram.clearPosition < 2 ^ 27)
    ∧ (State.reset.hardReset.updMem fun m => { m with dram := { m.dram with clearPosition := 2 ^ 27 } }).mem.dram.clearPosition = 2 ^ 27
    ∧ (Instr.offsetWrite 0 ≠ .powerOnReset) ∧ (Instr.clean 7 0 0).wf = true ∧ (ReqMsg.depart.command 7).wf = true := by decide +kernel

/-- What waits in the request channel at a hard reset, and what comes in during it, is counted as discarded (R132, log 10). -/
theorem test_hard_reset_discards :
    answers .hardReset (withLink 7 fun u => { u with requestChannel := [.depart, .flushDone], discarded := 0xFFFD }) fun t =>
      t.links[7].discarded = 0xFFFF ∧ t.links[7].requestChannel = [] ∧ answers (.clean 6 0 0) t fun v => v.links[6].discarded = 1 := by
  decide +kernel

/-- Hypotheses of StepsKeepTheMemoryCanonical and StepsKeepSoleHolders. -/
theorem test_hyp_invariants : State.reset.memoryCanonical ∧ State.reset.clearStoresNothing ∧ State.reset.freeRecordsIdle := by
  refine ⟨rfl, fun _ => ⟨rfl, rfl, rfl⟩, ?_⟩
  unfold State.freeRecordsIdle Slice.freeRecordsIdle
  decide +kernel

/-- Hypotheses of StepsKeepTheBounds. -/
theorem test_hyp_bounded : State.reset.bounded := by
  unfold State.bounded LinkUnit.bounded Slice.bounded
  decide +kernel

/-- Hypotheses of StepsKeepSoleHolders. -/
theorem test_hyp_sole_holders : State.reset.soleHolders := by
  intro sid l i j h
  have hall : ∀ (sid : SliceId) (i : RecIdx), State.reset.slices[sid].records[i].phase = .free := by decide +kernel
  exact absurd (hall sid i) h.1

/-- Hypotheses of StepsKeepTheDirectory. -/
theorem test_hyp_directory : State.reset.linesAtHome ∧ State.reset.directoryConsistent := by
  have hf : ∀ (sid : SliceId) (i : RecIdx), State.reset.slices[sid].records[i].phase = .free
      ∧ State.reset.slices[sid].records[i].plan = .none := by decide +kernel
  have hd : ∀ sid : SliceId, State.reset.slices[sid].dir = [] ∧ State.reset.slices[sid].waitQueue = []
      ∧ State.reset.slices[sid].engine.pendingLines = [] ∧ State.reset.mgmt.cmdPath[sid] = []
      ∧ ∀ n : Agent, State.reset.links[n].toSlice[sid] = [] := by decide +kernel
  have hs : ∀ (sid : SliceId) (p : Nat), State.reset.slices[sid].getSet p = DirSet.empty := by
    intro sid p
    rw [Slice.getSet, (hd sid).1]
    rfl
  have hw : ∀ w : WayIdx, DirSet.empty.ways[w] = .empty := by decide
  refine ⟨⟨fun sid => ⟨fun i h => absurd (hf sid i).1 h, ?_, ?_⟩, fun n sid => ⟨fun k t l w h => ?_, fun t l d h => ?_⟩, fun sid l h => ?_⟩, fun sid => ?_⟩
  · rw [(hd sid).2.1]
    simp
  · rw [(hd sid).2.2.1]
    simp
  · rw [(hd sid).2.2.2.2] at h
    cases h
  · rw [(hd sid).2.2.2.2] at h
    cases h
  · rw [(hd sid).2.2.2.1] at h
    cases h
  · refine ⟨by rw [(hd sid).1]; rfl, ?_, ?_, ?_, ?_, ?_, ?_⟩
    · intro p v w t h
      rw [Way.carries, hs, hw] at h
      simp at h
    · intro p
      rw [hs]
      refine ⟨by decide, fun w => ?_⟩
      rw [hw]
      simp [DirSet.empty]
    · intro p w t h hr
      rw [hs, hw] at hr
      cases hr
    · intro i v hi
      exact absurd (hf sid i).1 hi
    · intro p w t a h
      rw [hs, hw] at h
      cases h
    · intro i a h
      rw [(hf sid i).2] at h
      cases h

end Sys2Proof.Machine
end

/-!
The address function (R3) and its inverse (R4): the slice, the set index and the tag of a line as arithmetic, the fields of
the line that three such values name, and the line recovered from its own three.
-/

namespace Sys2Proof.Machine

/-! ## The address function as arithmetic (R3) -/

theorem setOf_eq_div_mod (l : LineAddr) : setOf l = (l.toNat / 4) % 2048 := by
  rw [setOf, BitVec.extractLsb'_toNat, Nat.shiftRight_eq_div_pow]

/-- The tag is a quotient without a remainder, as no bit of the line stands above bit 27. -/
theorem tagOf_toNat (l : LineAddr) : (tagOf l).toNat = l.toNat / 8192 := by
  have hl : l.toNat < 2 ^ 28 := l.isLt
  rw [tagOf, BitVec.extractLsb'_toNat, Nat.shiftRight_eq_div_pow]
  omega

theorem sliceOf_val (l : LineAddr) : (sliceOf l).val = (l.toNat % 4) ^^^ ((l.toNat / 2048) % 4) := by
  rw [sliceOf, BitVec.val_toFin, BitVec.toNat_xor, BitVec.extractLsb'_toNat, BitVec.extractLsb'_toNat,
    Nat.shiftRight_eq_div_pow, Nat.shiftRight_eq_div_pow, Nat.pow_zero, Nat.div_one]

/-- Bits 12:11 of a line, which R3 lays over its low bits, are the two upper bits of its set index. -/
theorem upperSetBits_eq (l : LineAddr) : (l.extractLsb' 2 11).extractLsb' 9 2 = l.extractLsb' 11 2 := by
  ext i hi
  simp only [BitVec.getElem_extractLsb', BitVec.getLsbD_extractLsb', ← Nat.add_assoc]
  simp only [show 9 + i < 11 by omega, decide_true, Bool.true_and]

/-! ## The fields of the line that a slice, a set index and a tag name (R4) -/

@[simp] theorem tagOf_lineOf (sid : SliceId) (p : Nat) (t : BitVec 15) : tagOf (lineOf sid p t) = t :=
  (BitVec.extractLsb'_append_eq_of_le (by decide : 2 ≤ 13)).trans BitVec.extractLsb'_append_eq_left

theorem setBits_lineOf (sid : SliceId) (p : Nat) (t : BitVec 15) :
    (lineOf sid p t).extractLsb' 2 11 = BitVec.ofNat 11 p :=
  (BitVec.extractLsb'_append_eq_of_le (Nat.le_refl 2)).trans BitVec.extractLsb'_append_eq_right

theorem lowBits_lineOf (sid : SliceId) (p : Nat) (t : BitVec 15) :
    (lineOf sid p t).extractLsb' 0 2 = BitVec.ofFin sid ^^^ (BitVec.ofNat 11 p).extractLsb' 9 2 :=
  BitVec.extractLsb'_append_eq_right

theorem setOf_lineOf (sid : SliceId) {p : Nat} (t : BitVec 15) (hp : p < 2048) : setOf (lineOf sid p t) = p := by
  rw [setOf, setBits_lineOf, BitVec.toNat_ofNat]
  exact Nat.mod_eq_of_lt hp

/-- The upper bits of the set index go into the low bits (R4) and into the slice (R3), and so cancel. -/
@[simp] theorem sliceOf_lineOf (sid : SliceId) (p : Nat) (t : BitVec 15) : sliceOf (lineOf sid p t) = sid := by
  rw [sliceOf, ← upperSetBits_eq, setBits_lineOf, lowBits_lineOf, BitVec.xor_assoc, BitVec.xor_self, BitVec.xor_zero]

/-! ## The line from its own slice, set index and tag (R4) -/

theorem append_tag_set_low (l : LineAddr) : l.extractLsb' 13 15 ++ l.extractLsb' 2 11 ++ l.extractLsb' 0 2 = l := by
  rw [BitVec.extractLsb'_append_extractLsb'_eq_extractLsb' (by decide : 13 = 2 + 11)]
  exact BitVec.extractLsb'_append_extractLsb'

/-- R4 takes back R3's exclusive-OR of the slice. -/
theorem lowBits_of_sliceOf (l : LineAddr) :
    BitVec.ofFin (sliceOf l) ^^^ (l.extractLsb' 2 11).extractLsb' 9 2 = l.extractLsb' 0 2 := by
  rw [upperSetBits_eq, sliceOf, BitVec.ofFin_toFin, BitVec.xor_assoc, BitVec.xor_self, BitVec.xor_zero]

@[simp] theorem lineOf_sliceOf_setOf_tagOf (l : LineAddr) : lineOf (sliceOf l) (setOf l) (tagOf l) = l := by
  have hset : BitVec.ofNat 11 (setOf l) = l.extractLsb' 2 11 := by
    rw [setOf, BitVec.ofNat_toNat, BitVec.setWidth_eq]
  rw [lineOf, hset, lowBits_of_sliceOf]
  exact append_tag_set_low l

/-- Settles O4: R3's three formulas one by one, and R4 as the inverse of R3 on both sides. -/
theorem theAddressFunctionIsInvertible : Obligations.TheAddressFunctionIsInvertible := by
  unfold Obligations.TheAddressFunctionIsInvertible
  exact ⟨fun l => ⟨setOf_eq_div_mod l, tagOf_toNat l, sliceOf_val l, lineOf_sliceOf_setOf_tagOf l⟩,
    fun sid p t hp => ⟨sliceOf_lineOf sid p t, setOf_lineOf sid t hp, tagOf_lineOf sid p t⟩⟩

end Sys2Proof.Machine

/-!
The memory channel performing an operation: the oldest queued operation for a line is the one taken, whatever its kind (R175),
and a full write stores its line (R178).
-/

namespace Sys2Proof.Machine

/-! ## The oldest queued operation for a line (R175) -/

theorem takeFirst_append_cons {α : Type} {p : α → Bool} {pre : List α} {x : α} (post : List α)
    (hpre : ∀ y ∈ pre, p y = false) (hx : p x = true) : takeFirst p (pre ++ x :: post) = some (x, pre ++ post) := by
  induction pre with
  | nil => simp [takeFirst, hx]
  | cons y ys ih =>
    have hy : p y = false := hpre y List.mem_cons_self
    have hys : takeFirst p (ys ++ x :: post) = some (x, ys ++ post) :=
      ih fun z hz => hpre z (List.mem_cons_of_mem y hz)
    simp [takeFirst, hy, hys]

/-- With the clear over, the operation performed is the first for the line, and only its place is freed (R175, R183). -/
theorem State.perform_of_oldest {line : LineAddr} {f : MemOp → Option (State → State)} {g : State → State} {q : QueuedOp}
    {pre post : List QueuedOp} {s : State} (hclear : s.mem.dram.clearRunning = false)
    (hqueue : s.mem.queue = pre ++ q :: post) (hpre : ∀ x ∈ pre, x.op.line ≠ line) (hline : q.op.line = line)
    (hf : f q.op = some g) : s.perform line f = g (s.updMem fun m => { m with queue := pre ++ post }) := by
  have htake : takeFirst (fun x => x.op.line = line) s.mem.queue = some (q, pre ++ post) := by
    rw [hqueue]
    exact takeFirst_append_cons post (fun x hx => decide_eq_false (hpre x hx)) (decide_eq_true hline)
  simp [State.perform, hclear, htake, hf]

/-! ## A full write (R178) -/

theorem exec_fullWrite (line : LineAddr) (s : State) : exec (.fullWrite line) s = execFullWrite line s := rfl

/-- A full write frees its place and stores its line; the rest of the state stays. -/
theorem exec_fullWrite_of_oldest {l : LineAddr} {d : Poisoned} {sid : SliceId} {pre post : List QueuedOp} {s : State}
    (hpin : s.resetPin = .released) (hclear : s.mem.dram.clearRunning = false)
    (hqueue : s.mem.queue = pre ++ ⟨.fullWrite l d, sid⟩ :: post) (hpre : ∀ q ∈ pre, q.op.line ≠ l) :
    exec (.fullWrite l) s = .next (s.updMem fun m =>
      { m with queue := pre ++ post, dram := m.dram.writeLine l.toNat d.bytes d.poison }) := by
  rw [exec_fullWrite, execFullWrite, whileReleased_of_released _ _ hpin,
    State.perform_of_oldest hclear hqueue hpre rfl rfl]
  rfl

/-! ## What a line stored whole holds -/

theorem Dram.readByte_writeLine_same (d : Dram) (l : Nat) (bytes : LineData) (mark : Bool) (i : Fin 64)
    (h : Memory.wf d = true) : (d.writeLine l bytes mark).readByte (l * 64 + i.val) = bytes[i] := by
  have hline : (l * 64 + i.val) / 64 = l := by omega
  have hbyte : (l * 64 + i.val) % 64 = i.val := by omega
  rw [Dram.readByte_writeLine _ _ _ _ _ h, if_pos hline]
  simp only [hbyte, Fin.getElem_fin]

theorem Dram.readByte_writeLine_other (d : Dram) {l : Nat} (bytes : LineData) (mark : Bool) {a : Nat}
    (h : Memory.wf d = true) (ha : a / 64 ≠ l) : (d.writeLine l bytes mark).readByte a = d.readByte a := by
  rw [Dram.readByte_writeLine _ _ _ _ _ h, if_neg ha]

theorem Dram.marked_writeLine_same (d : Dram) (l : Nat) (bytes : LineData) (mark : Bool) (h : Memory.wf d = true) :
    (d.writeLine l bytes mark).marked l = mark := by
  rw [Dram.marked_writeLine _ _ _ _ _ h, if_pos rfl]

theorem Dram.marked_writeLine_other (d : Dram) {l : Nat} (bytes : LineData) (mark : Bool) {k : Nat}
    (h : Memory.wf d = true) (hk : k ≠ l) : (d.writeLine l bytes mark).marked k = d.marked k := by
  rw [Dram.marked_writeLine _ _ _ _ _ h, if_neg hk]

/-- Settles O45: the DRAM after the event is the one with the line written whole, and reading it after that write gives the bytes
and the mark of the line and of every other. -/
theorem aFullWriteStoresItsLine : Obligations.AFullWriteStoresItsLine := by
  unfold Obligations.AFullWriteStoresItsLine
  intro l d sid pre post s hpin hclear hwf hqueue hpre
  refine ⟨s.mem.dram.writeLine l.toNat d.bytes d.poison, ?event, ?bytes, ?otherBytes, ?mark, ?otherMarks, ?canonical, ?clear⟩
  case event => exact exec_fullWrite_of_oldest hpin hclear hqueue hpre
  case bytes => exact fun i => Dram.readByte_writeLine_same _ _ _ _ i hwf
  case otherBytes => exact fun a ha => Dram.readByte_writeLine_other _ _ _ hwf ha
  case mark => exact Dram.marked_writeLine_same _ _ _ _ hwf
  case otherMarks => exact fun k hk => Dram.marked_writeLine_other _ _ _ hwf hk
  case canonical => exact Memory.wf_writeLine _ _ _ _ hwf
  case clear => exact (Dram.writeLine_clearRunning _ _ _ _).trans hclear

end Sys2Proof.Machine

/-!
The data check (R211): the CRC register fed bit by bit, and which message passes its check (R144).
-/

namespace Sys2Proof.Machine

/-! ## The register fed one bit at a time (R211) -/

/-- The bits of a byte in the order in which R211 feeds them, the most significant first. -/
def msbFirstBits (b : Byte) : List Bool := (List.range 8).map fun k => b.getLsbD (7 - k)

/-- The bit that the shift moves out of the register is its bit 15. -/
theorem crcBit_eq_ite_bit15 (c : BitVec 16) (b : Bool) :
    crcBit c b = if c.getLsbD 15 ^^ b then (c <<< 1) ^^^ 0x1021#16 else c <<< 1 := by
  rw [crcBit, BitVec.msb_eq_getLsbD_last]

theorem crcByte_eq_foldl_bits (c : BitVec 16) (b : Byte) : crcByte c b = (msbFirstBits b).foldl crcBit c := rfl

/-- Feeding bytes one after another is feeding the one string of their bits. -/
theorem crc_eq_foldl_bits (bs : List Byte) : crc bs = (bs.flatMap msbFirstBits).foldl crcBit 0xFFFF#16 := by
  simp only [crc, List.foldl_flatMap, ← crcByte_eq_foldl_bits]

/-! ## Which message passes (R144, R211) -/

theorem ReqMsg.checked_returnDirty (m : ReturnDirtyMsg) :
    (ReqMsg.returnDirty m).checked = some (decide (m.check = crc m.data.bytes.toList)) := rfl

theorem ReqMsg.checked_maskedWrite (m : MaskedWriteMsg) :
    (ReqMsg.maskedWrite m).checked
      = some (decide (m.check = crc (m.write.data.bytes.toList ++ maskBytes m.write.mask))) := rfl

/-- A Dirty reply that passes ends the row of failed checks and is forwarded (R143, R145). -/
theorem State.takeDirty_of_check_eq (n : Agent) {m : DirtyMsg} (s : State) (h : m.check = crc m.data.bytes.toList) :
    s.takeDirty n m = (s.updLink n fun u => { u with consecutive := 0 }).updLink n
      (LinkUnit.forward m.handle (.reply m.handle m.line (.dirty m.data))) := by
  rw [State.takeDirty, dataCheck, if_pos h, State.dataCheckPassed]

/-- A Dirty reply that fails is counted and answered with a retry of its handle (R144, R145). -/
theorem State.takeDirty_of_check_ne (n : Agent) {m : DirtyMsg} (s : State) (h : m.check ≠ crc m.data.bytes.toList) :
    s.takeDirty n m = s.dataCheckFailed n ⟨.dataCheck, some (.reply, kindDirty), some m.line, none⟩
      (LinkUnit.queueReplyRetry m.handle) := by
  rw [State.takeDirty, dataCheck, if_neg h]

/-- Settles O5: the statement's register is the model's CRC, and each of the three kinds is compared with that CRC over its
own bytes. -/
theorem theDataCheckIsTheCrc : Obligations.TheDataCheckIsTheCrc := by
  unfold Obligations.TheDataCheckIsTheCrc
  intro bit register
  have hbit : crcBit = bit := funext₂ crcBit_eq_ite_bit15
  have hregister : ∀ bs : List Byte, register bs = crc bs := by
    intro bs
    rw [crc_eq_foldl_bits, hbit]
    rfl
  simp only [hregister]
  refine ⟨?returnDirty, ?maskedWrite, ?dirty⟩
  case returnDirty => exact ReqMsg.checked_returnDirty
  case maskedWrite => exact ReqMsg.checked_maskedWrite
  case dirty => exact fun n m s => ⟨State.takeDirty_of_check_eq n s, State.takeDirty_of_check_ne n s⟩

end Sys2Proof.Machine

/-!
What an event can do to one slice, act by act: the acts of the slice operations, and every function of a slice event as a chain of
them. The invariants of the slices are facts about the single acts.
-/

namespace Sys2Proof.Machine

/-! ## The acts -/

/-- A record goes on without becoming FREE or taking a line; it may release its victim line (R114). -/
def Record.keeps (r r' : Record) : Prop :=
  (r'.phase = .free ↔ r.phase = .free) ∧ r'.line = r.line ∧ (r'.victim = r.victim ∨ r'.victim = none)
    ∧ ∀ a, r'.plan = .grantShared a → a ≠ 0#8 ∨ r.plan = .grantShared a

/-- A record as a transaction starts in it: in use, without a victim line and without a plan (R26). -/
def Record.begins (r : Record) : Prop := r.phase ≠ .free ∧ r.victim = none ∧ r.plan = .none

/-- What record i, which has just started, does about a way for its line: nothing, the reservation of an EMPTY way (R110), or the
choice of a victim (R111). -/
inductive Slice.Placed (sid : SliceId) (i : RecIdx) (x : Slice) : Slice → Prop
  | plain : Slice.Placed sid i x x
  | reserve (w : WayIdx) (habsent : x.entryOf x.records[i].line = none)
      (hempty : (x.getSet (setOf x.records[i].line)).ways[w] = .empty) :
      Slice.Placed sid i x (x.putSet (setOf x.records[i].line)
        ((x.getSet (setOf x.records[i].line)).setWay w (.reserved (tagOf x.records[i].line) (handleOf sid i))))
  | victim (w : WayIdx) (t : BitVec 15) (e : Entry) (habsent : x.entryOf x.records[i].line = none)
      (hway : (x.getSet (setOf x.records[i].line)).ways[w] = .occupied t e)
      (hfree : x.held (lineOf sid (setOf x.records[i].line) t) = false) :
      Slice.Placed sid i x { x with
        records := x.records.set i { x.records[i] with victim := some (lineOf sid (setOf x.records[i].line) t) } }

/-- The slice after record i has given up its reservation, with `r` in its place (R20, R28). -/
def Slice.replaceRecord (sid : SliceId) (i : RecIdx) (r : Record) (x : Slice) : Slice :=
  { x.dropReservation sid i with records := x.records.set i r }

/-- The slice `b` is `x` but for what a start takes off: waiters, pending lines, and what no invariant of the slices speaks of. -/
structure Slice.Rests (x b : Slice) : Prop where
  dir : b.dir = x.dir
  records : b.records = x.records
  submission : b.submission = x.submission
  waitQueue : b.waitQueue.Sublist x.waitQueue
  position : b.engine.position = x.engine.position
  pendingLines : b.engine.pendingLines ⊆ x.engine.pendingLines

/-- One act of an event at slice `sid`; `enters` are the lines that the event's message brings. -/
inductive Slice.Act (sid : SliceId) (enters : LineAddr → Prop) (x : Slice) : Slice → Prop
  | paths (y : Slice) (hdir : y.dir = x.dir) (hrec : y.records = x.records) (hqueue : y.waitQueue = x.waitQueue)
      (hsub : y.submission = x.submission) (heng : y.engine = x.engine) : Slice.Act sid enters x y
  | records (v : Vector Record 32) (h : ∀ i : RecIdx, x.records[i].keeps v[i]) : Slice.Act sid enters x { x with records := v }
  | engine (y : Slice) (hdir : y.dir = x.dir) (hrec : y.records = x.records) (hqueue : y.waitQueue = x.waitQueue)
      (hsub : y.submission = x.submission) (hpos : x.engine.position < 2048 → y.engine.position < 2048)
      (hpending : ∀ l ∈ y.engine.pendingLines, l ∈ x.engine.pendingLines ∨ sliceOf l = sid) : Slice.Act sid enters x y
  | order (op : MemOp) (owner : OpOwner) (h : ∀ i : RecIdx, owner = .record i → x.records[i].phase ≠ .free) :
      Slice.Act sid enters x (x.order op owner)
  | submitted (os : List Ordered) (h : os ⊆ x.submission) : Slice.Act sid enters x { x with submission := os }
  | queue (w : Waiter) (hlen : x.waitQueue.length < 48) (hline : enters w.line) :
      Slice.Act sid enters x { x with waitQueue := x.waitQueue ++ [w] }
  | unqueue (q : List Waiter) (h : q.Sublist x.waitQueue) : Slice.Act sid enters x { x with waitQueue := q }
  | free (l : LineAddr) : Slice.Act sid enters x (x.freeEntry sid l)
  | rewrite (l : LineAddr) (e : Entry) (h : ∀ a, e = .shared a → a ≠ 0#8) : Slice.Act sid enters x (x.rewriteEntry l e)
  | grant (i : RecIdx) (e : Entry) (hi : x.records[i].phase ≠ .free)
      (h : ∀ a, e = .shared a → x.records[i].plan = .grantShared a) :
      Slice.Act sid enters x (x.grantEntry x.records[i].line e)
  | ended (i : RecIdx) (hi : x.records[i].phase ≠ .free) (hops : x.noOps i = true) :
      Slice.Act sid enters x (x.replaceRecord sid i Record.free)
  | start (b : Slice) (i : RecIdx) (r : Record) (y : Slice) (hb : x.Rests b) (hi : x.records[i].phase = .free)
      (hfree : x.held r.line = false) (hr : r.begins)
      (hline : enters r.line ∨ (∃ w ∈ x.waitQueue, w.line = r.line) ∨ r.line ∈ x.engine.pendingLines)
      (hplaced : Slice.Placed sid i { b with records := b.records.set i r } y) : Slice.Act sid enters x y
  | hand (i : RecIdx) (r : Record) (y : Slice) (hi : x.records[i].phase ≠ .free) (hline : r.line = x.records[i].line) (hr : r.begins)
      (hplaced : Slice.Placed sid i (x.replaceRecord sid i r) y) : Slice.Act sid enters x y

/-- Some acts, one after another. -/
def Slice.Acts (sid : SliceId) (enters : LineAddr → Prop) : Slice → Slice → Prop := Relation.ReflTransGen (Slice.Act sid enters)

/-- Acts of record i, which is in use and stays so. -/
def Slice.ActsFor (sid : SliceId) (enters : LineAddr → Prop) (i : RecIdx) (x y : Slice) : Prop :=
  x.records[i].phase ≠ .free → Slice.Acts sid enters x y ∧ y.records[i].phase ≠ .free

section
variable {sid : SliceId} {enters : LineAddr → Prop} {env : Env} {i : RecIdx} {x y z : Slice}

theorem Slice.Acts.refl (x : Slice) : Slice.Acts sid enters x x := Relation.ReflTransGen.refl

theorem Slice.Acts.trans (h : Slice.Acts sid enters x y) (h' : Slice.Acts sid enters y z) : Slice.Acts sid enters x z :=
  Relation.ReflTransGen.trans h h'

theorem Slice.Act.acts (h : Slice.Act sid enters x y) : Slice.Acts sid enters x y := Relation.ReflTransGen.single h

theorem Slice.ActsFor.refl (x : Slice) : Slice.ActsFor sid enters i x x := fun h => ⟨.refl x, h⟩

theorem Slice.ActsFor.trans (h : Slice.ActsFor sid enters i x y) (h' : Slice.ActsFor sid enters i y z) :
    Slice.ActsFor sid enters i x z := fun hi =>
  have ⟨hxy, hy⟩ := h hi
  have ⟨hyz, hz⟩ := h' hy
  ⟨hxy.trans hyz, hz⟩

theorem Slice.Act.actsFor (h : Slice.Act sid enters x y) (hi : y.records[i].phase = x.records[i].phase) :
    Slice.ActsFor sid enters i x y := fun hx => ⟨h.acts, fun hy => hx (hi.symm.trans hy)⟩

/-- Acts along a list, one element after another. -/
theorem Slice.ActsFor.foldl {α : Type} {f : Slice → α → Slice} (h : ∀ x a, Slice.ActsFor sid enters i x (f x a)) (l : List α)
    (x : Slice) : Slice.ActsFor sid enters i x (l.foldl f x) := by
  induction l generalizing x with
  | nil => exact .refl x
  | cons a l ih => exact (h x a).trans (ih (f x a))

theorem Slice.Acts.foldl {α : Type} {f : Slice → α → Slice} (h : ∀ x a, Slice.Acts sid enters x (f x a)) (l : List α)
    (x : Slice) : Slice.Acts sid enters x (l.foldl f x) := by
  induction l generalizing x with
  | nil => exact .refl x
  | cons a l ih => exact (h x a).trans (ih (f x a))

/-! ## What the directory operations leave -/

@[simp] theorem Slice.freeEntry_records (x : Slice) (sid : SliceId) (l : LineAddr) : (x.freeEntry sid l).records = x.records := by
  unfold Slice.freeEntry; split <;> rfl

@[simp] theorem Slice.rewriteEntry_records (x : Slice) (l : LineAddr) (e : Entry) : (x.rewriteEntry l e).records = x.records := by
  unfold Slice.rewriteEntry; split <;> rfl

@[simp] theorem Slice.grantEntry_records (x : Slice) (l : LineAddr) (e : Entry) : (x.grantEntry l e).records = x.records := by
  unfold Slice.grantEntry; split <;> rfl

@[simp] theorem Slice.dropReservation_records (x : Slice) (sid : SliceId) (i : RecIdx) :
    (x.dropReservation sid i).records = x.records := by
  simp only [Slice.dropReservation]; repeat' split
  all_goals rfl

/-! ## The operations as acts -/

/-- A change of what no invariant of the slices speaks of. -/
theorem Slice.Acts.ofPaths (hdir : y.dir = x.dir) (hrec : y.records = x.records) (hqueue : y.waitQueue = x.waitQueue)
    (hsub : y.submission = x.submission) (heng : y.engine = x.engine) : Slice.Acts sid enters x y :=
  (Slice.Act.paths y hdir hrec hqueue hsub heng).acts

/-- A change of the engine: its position stays a set index, and no line becomes pending. -/
theorem Slice.Acts.ofEngine (hdir : y.dir = x.dir) (hrec : y.records = x.records) (hqueue : y.waitQueue = x.waitQueue)
    (hsub : y.submission = x.submission) (hpos : x.engine.position < 2048 → y.engine.position < 2048)
    (hpending : y.engine.pendingLines ⊆ x.engine.pendingLines) : Slice.Acts sid enters x y :=
  (Slice.Act.engine y hdir hrec hqueue hsub hpos fun _ hl => .inl (hpending hl)).acts

theorem Slice.Acts.send (n : Agent) (m : LinkMsg) (x : Slice) : Slice.Acts sid enters x (x.send n m) :=
  .ofPaths rfl rfl rfl rfl rfl

theorem Slice.ActsFor.send (n : Agent) (m : LinkMsg) (x : Slice) : Slice.ActsFor sid enters i x (x.send n m) :=
  (Slice.Act.paths (x := x) (x.send n m) rfl rfl rfl rfl rfl).actsFor rfl

theorem Slice.ActsFor.order (op : MemOp) (x : Slice) : Slice.ActsFor sid enters i x (x.order op (.record i)) := fun hi =>
  ⟨(Slice.Act.order op _ fun _ hj => OpOwner.record.inj hj ▸ hi).acts, hi⟩

theorem Slice.ActsFor.freeEntry (l : LineAddr) (x : Slice) : Slice.ActsFor sid enters i x (x.freeEntry sid l) :=
  (Slice.Act.free l).actsFor (by rw [Slice.freeEntry_records])

theorem Slice.Acts.freeEntry (l : LineAddr) (x : Slice) : Slice.Acts sid enters x (x.freeEntry sid l) := (Slice.Act.free l).acts

theorem Slice.ActsFor.rewriteEntry (l : LineAddr) (e : Entry) (x : Slice) (h : ∀ a, e = .shared a → a ≠ 0#8) :
    Slice.ActsFor sid enters i x (x.rewriteEntry l e) := (Slice.Act.rewrite l e h).actsFor (by rw [Slice.rewriteEntry_records])

/-- Removing an agent frees the entry, rewrites it, or does nothing (R18). -/
theorem Slice.removeAgent_eq (x : Slice) (sid : SliceId) (l : LineAddr) (n : Agent) :
    x.removeAgent sid l n = x ∨ x.removeAgent sid l n = x.freeEntry sid l
      ∨ ∃ a, a ≠ 0#8 ∧ x.removeAgent sid l n = x.rewriteEntry l (.shared a) := by
  unfold Slice.removeAgent
  split
  · exact .inl rfl
  · split
    · split
      · exact .inr (.inl rfl)
      · next h => exact .inr (.inr ⟨_, h, rfl⟩)
    · exact .inl rfl
  · split
    · exact .inr (.inl rfl)
    · exact .inl rfl

theorem Slice.ActsFor.removeAgent (l : LineAddr) (n : Agent) (x : Slice) : Slice.ActsFor sid enters i x (x.removeAgent sid l n) := by
  obtain h | h | ⟨a, ha, h⟩ := x.removeAgent_eq sid l n <;> rw [h]
  · exact .refl x
  · exact .freeEntry l x
  · exact .rewriteEntry l _ x fun _ hb => Entry.shared.inj hb ▸ ha

theorem Slice.Acts.removeAgent (l : LineAddr) (n : Agent) (x : Slice) : Slice.Acts sid enters x (x.removeAgent sid l n) := by
  obtain h | h | ⟨a, ha, h⟩ := x.removeAgent_eq sid l n <;> rw [h]
  · exact .refl x
  · exact .freeEntry l x
  · exact (Slice.Act.rewrite l _ fun _ hb => Entry.shared.inj hb ▸ ha).acts

theorem Record.keeps_refl (r : Record) : r.keeps r := ⟨.rfl, rfl, .inl rfl, fun _ h => .inr h⟩

theorem Record.keeps_fixDeadline {r r' : Record} (h : r.keeps r') : r.keeps (r'.fixDeadline env) := h

/-- Reading the records where one has been replaced. -/
theorem Slice.getElem_set_records (v : Vector Record 32) (i j : RecIdx) (r : Record) :
    (v.set i r)[j] = if j = i then r else v[j] := by
  by_cases h : j = i
  · subst h; simp
  · rw [if_neg h]
    exact Vector.getElem_set_ne i.isLt j.isLt fun e => h (Fin.ext e.symm)

/-- One record goes on. -/
theorem Slice.Act.setRecord {r : Record} (h : x.records[i].keeps r) :
    Slice.Act sid enters x { x with records := x.records.set i r } := by
  refine .records _ fun j => ?_
  rw [Slice.getElem_set_records]
  split
  · next hj => exact hj ▸ h
  · exact Record.keeps_refl _

theorem Slice.Acts.updRec {f : Record → Record} (h : x.records[i].keeps (f x.records[i])) :
    Slice.Acts sid enters x (x.updRec env i f) := (Slice.Act.setRecord (Record.keeps_fixDeadline h)).acts

theorem Slice.ActsFor.updRec {f : Record → Record} (h : x.records[i].keeps (f x.records[i])) :
    Slice.ActsFor sid enters i x (x.updRec env i f) := fun hi =>
  ⟨.updRec h, fun hy => hi (h.1.1 (by rwa [Slice.updRec_self] at hy))⟩

theorem Record.keeps_setWaits (r : Record) (v : Bool) (ws : List Wait) : r.keeps (r.setWaits v ws) := by
  unfold Record.setWaits; split <;> exact r.keeps_refl

theorem Slice.ActsFor.moveWaitOf (v : Bool) (n : Agent) (st : WaitState) (x : Slice) :
    Slice.ActsFor sid enters i x (x.moveWaitOf env i v n st) := .updRec (Record.keeps_setWaits _ _ _)

theorem Slice.Acts.finish (i : RecIdx) (x : Slice) : Slice.Acts sid enters x (x.finish env i) := .updRec (Record.keeps_refl _)

theorem Slice.ActsFor.finish (x : Slice) : Slice.ActsFor sid enters i x (x.finish env i) := .updRec (Record.keeps_refl _)

theorem Slice.ActsFor.orderRead (x : Slice) : Slice.ActsFor sid enters i x (x.orderRead env i) :=
  (Slice.ActsFor.order _ x).trans (.updRec (Record.keeps_refl _))

theorem Slice.ActsFor.respond (resp : Tag → Response) (x : Slice) : Slice.ActsFor sid enters i x (x.respond i resp) := by
  unfold Slice.respond
  split
  · exact .send _ _ x
  · exact .refl x

theorem Slice.ActsFor.orderPoisonIf (p : Bool) (l : LineAddr) (x : Slice) :
    Slice.ActsFor sid enters i x (x.orderPoisonIf p l i) := by
  unfold Slice.orderPoisonIf
  split
  · exact .order _ x
  · exact .refl x

theorem Slice.ActsFor.orderWrite (x : Slice) : Slice.ActsFor env.sid enters i x (x.orderWrite env i) := by
  simp only [Slice.orderWrite]
  split
  · exact .updRec (Record.keeps_refl _)
  · refine .trans (.trans ?_ (.freeEntry _ _)) (.updRec (Record.keeps_refl _))
    split
    · exact .order _ x
    · exact .order _ x
    · exact (Slice.ActsFor.order _ x).trans (.orderPoisonIf _ _ _)

theorem solePlan_nonzero {exclusive : Bool} {a : Agent} {b : AgentSet} (h : solePlan exclusive a = .grantShared b) : b ≠ 0#8 := by
  cases exclusive
  · have hb : AgentSet.single a = b := Plan.grantShared.inj h
    subst hb
    revert a; decide
  · cases h

theorem Record.keeps_replan (r : Record) : r.keeps r.replan := by
  unfold Record.replan
  split
  · exact ⟨.rfl, rfl, .inl rfl, fun a h => .inl (solePlan_nonzero h)⟩
  · exact r.keeps_refl

theorem Slice.ActsFor.lostOwner (v : Bool) (x : Slice) : Slice.ActsFor env.sid enters i x (x.lostOwner env i v) := by
  have hread (y : Slice) : Slice.ActsFor env.sid enters i y
      (if x.records[i].originFenced then y else (y.updRec env i Record.replan).orderRead env i) := by
    split
    · exact .refl y
    · exact (Slice.ActsFor.updRec (Record.keeps_replan _)).trans (.orderRead _)
  simp only [Slice.lostOwner]
  split
  · exact .order _ x
  · split
    · exact (Slice.ActsFor.order _ x).trans (hread _)
    · exact (Slice.ActsFor.order _ x).trans (hread _)
    · exact (Slice.ActsFor.order _ x).trans (hread _)
    · exact (Slice.ActsFor.order _ x).trans (hread _)
    · exact .order _ x
    · exact .orderWrite x
    · split
      · exact .refl x
      · refine .trans (.trans ?_ (.freeEntry _ _)) (.updRec (Record.keeps_refl _))
        split
        · exact .order _ x
        · exact ((Slice.ActsFor.order _ x).trans (.order _ _)).trans (.orderPoisonIf _ _ _)

theorem Slice.ActsFor.settleFenced (v : Bool) (n : Agent) (x : Slice) :
    Slice.ActsFor env.sid enters i x (x.settleFenced env i v n) := by
  simp only [Slice.settleFenced]
  split
  · exact .refl x
  · split
    · exact (Slice.ActsFor.moveWaitOf _ _ _ x).trans (.removeAgent _ _ _)
    · exact .moveWaitOf _ _ _ x
    · exact (Slice.ActsFor.moveWaitOf _ _ _ x).trans (.lostOwner _ _)
    · exact (Slice.ActsFor.moveWaitOf _ _ _ x).trans (.lostOwner _ _)
    · exact .refl x

theorem Slice.ActsFor.probeAgent (v : Bool) (k : ProbeKind) (role : Role) (x : Slice) (n : Agent) :
    Slice.ActsFor env.sid enters i x (x.probeAgent env i v k role n) := by
  simp only [Slice.probeAgent]
  have hwait : Slice.ActsFor env.sid enters i x
      (x.updRec env i fun r => r.setWaits v (r.waitsOn v ++ [⟨n, role, k, .awaitingReply⟩])) := .updRec (Record.keeps_setWaits _ _ _)
  refine hwait.trans ?_
  split
  · exact .settleFenced _ _ _
  · exact .send _ _ _

theorem Slice.ActsFor.revokeAll (v : Bool) (e : Entry) (a : AgentSet) (x : Slice) :
    Slice.ActsFor env.sid enters i x (x.revokeAll env i v e a) := .foldl (Slice.ActsFor.probeAgent v .revoke e.role) _ x

theorem Slice.ActsFor.answerRetry (c : RetryCause) (x : Slice) : Slice.ActsFor sid enters i x (x.answerRetry env i c) :=
  (Slice.ActsFor.respond _ x).trans (.finish _)

end

end Sys2Proof.Machine

/-!
What a slice does within one event, as acts: the start of a record, a record going on and its end, the arbiter, the sweep engine,
and the loop that lets the slice go on.
-/

namespace Sys2Proof.Machine

section
variable {sid : SliceId} {enters : LineAddr → Prop} {env : Env} {i : RecIdx} {a x y z : Slice}

theorem Slice.ActsFor.after (h : Slice.ActsFor sid enters i y z) (hy : Slice.Acts sid enters a y)
    (hi : y.records[i].phase ≠ .free) : Slice.Acts sid enters a z := hy.trans (h hi).1

theorem Slice.ActsFor.acts (h : Slice.ActsFor sid enters i x y) (hi : x.records[i].phase ≠ .free) : Slice.Acts sid enters x y :=
  (h hi).1

/-! ## The start of a record -/

theorem DirSet.findEmpty_some {d : DirSet} {w : WayIdx} (h : d.findEmpty = some w) : d.ways[w] = .empty := by
  simpa using List.find?_some h

/-- A victim is an OCCUPIED way of the set, whose line is not held (R111). -/
theorem Slice.chooseVictim_some {p : Nat} {v : LineAddr} {e : Entry} (h : x.chooseVictim sid p = some (v, e)) :
    ∃ (w : WayIdx) (t : BitVec 15), (x.getSet p).ways[w] = .occupied t e ∧ v = lineOf sid p t ∧ x.held v = false := by
  obtain ⟨w, -, hw⟩ := List.exists_of_findSome?_eq_some h
  split at hw
  · next t e' hway =>
    split at hw
    · cases hw
    · next hfree =>
      cases hw
      exact ⟨w, t, hway, rfl, by simpa using hfree⟩
  · cases hw

theorem Record.keeps_setPlan {r : Record} {p : Plan} (h : ∀ a, p = .grantShared a → a ≠ 0#8) : r.keeps { r with plan := p } :=
  ⟨.rfl, rfl, .inl rfl, fun a ha => .inl (h a ha)⟩

/-- The search for a way: the reservation or the victim, and then acts of the record (R110 to R112). -/
theorem Slice.Acts.needWay {plan : Plan} (hplan : ∀ a, plan = .grantShared a → a ≠ 0#8)
    (hplaced : ∀ y, Slice.Placed env.sid i x y → Slice.Acts env.sid enters a y) (hi : x.records[i].phase ≠ .free)
    (habsent : x.entryOf x.records[i].line = none) : Slice.Acts env.sid enters a (x.needWay env i plan) := by
  simp only [Slice.needWay]
  split
  · next w hw =>
    have hreserve := hplaced _ (.reserve w habsent (DirSet.findEmpty_some hw))
    exact ((Slice.ActsFor.updRec (Record.keeps_setPlan hplan)).trans (.orderRead _)).after hreserve hi
  · split
    · next v e hv =>
      obtain ⟨w, t, hway, rfl, hfree⟩ := Slice.chooseVictim_some hv
      have hvictim := hplaced _ (.victim w t e habsent hway hfree)
      refine (Slice.ActsFor.trans (.revokeAll true e e.agents _) (.orderRead _)).after (hvictim.trans ?_) ?_
      · have hset : x.updRec env i (fun r => { r with plan := plan, victim := some (lineOf env.sid (setOf x.records[i].line) t) })
            = Slice.updRec env i (fun r => { r with plan := plan })
              { x with
                records := x.records.set i { x.records[i] with victim := some (lineOf env.sid (setOf x.records[i].line) t) } } := by
          simp [Slice.updRec]
        rw [hset]
        exact .updRec (Record.keeps_setPlan hplan)
      · rwa [Slice.updRec_self]
    · exact (Slice.ActsFor.answerRetry _ _).after (hplaced _ .plain) hi

theorem AgentSet.insert_ne_zero (a : AgentSet) (n : Agent) : AgentSet.insert a n ≠ 0#8 := by
  intro h
  have hbit : (AgentSet.insert a n).getLsbD n = true := by
    simp [AgentSet.insert, AgentSet.single]
  rw [h] at hbit
  simp at hbit

theorem Slice.Acts.startFetchShared {n : Agent} (hplaced : ∀ y, Slice.Placed env.sid i x y → Slice.Acts env.sid enters a y)
    (hi : x.records[i].phase ≠ .free) : Slice.Acts env.sid enters a (x.startFetchShared env i n) := by
  simp only [Slice.startFetchShared]
  split
  · next h => exact .needWay (fun _ => solePlan_nonzero) hplaced hi h
  · refine (Slice.ActsFor.trans (.updRec (Record.keeps_setPlan ?_)) (.orderRead _)).after (hplaced _ .plain) hi
    intro b hb
    split at hb
    · exact solePlan_nonzero hb
    · exact Plan.grantShared.inj hb ▸ AgentSet.insert_ne_zero _ _
  · split
    · exact (Slice.ActsFor.answerRetry _ _).after (hplaced _ .plain) hi
    · refine (Slice.ActsFor.trans (.updRec (Record.keeps_setPlan ?_)) (.probeAgent _ _ _ _ _)).after (hplaced _ .plain) hi
      exact fun b hb => Plan.grantShared.inj hb ▸ AgentSet.insert_ne_zero _ _

theorem Slice.Acts.startFetchOwned {n : Agent} (hplaced : ∀ y, Slice.Placed env.sid i x y → Slice.Acts env.sid enters a y)
    (hi : x.records[i].phase ≠ .free) : Slice.Acts env.sid enters a (x.startFetchOwned env i n) := by
  have hplan : x.records[i].keeps { x.records[i] with plan := .grantOwned } := Record.keeps_setPlan fun _ h => by cases h
  simp only [Slice.startFetchOwned]
  split
  · next h => exact .needWay (fun _ h => by cases h) hplaced hi h
  · exact (((Slice.ActsFor.updRec hplan).trans (.revokeAll _ _ _ _)).trans (.orderRead _)).after (hplaced _ .plain) hi
  · split
    · exact (Slice.ActsFor.answerRetry _ _).after (hplaced _ .plain) hi
    · exact ((Slice.ActsFor.updRec hplan).trans (.probeAgent _ _ _ _ _)).after (hplaced _ .plain) hi

theorem Slice.Acts.startPromote {n : Agent} (hplaced : ∀ y, Slice.Placed env.sid i x y → Slice.Acts env.sid enters a y)
    (hi : x.records[i].phase ≠ .free) : Slice.Acts env.sid enters a (x.startPromote env i n) := by
  simp only [Slice.startPromote]
  split
  · split
    · refine (Slice.ActsFor.trans (.updRec (Record.keeps_setPlan ?_)) (.revokeAll _ _ _ _)).after (hplaced _ .plain) hi
      exact fun _ h => by cases h
    · exact .startFetchOwned hplaced hi
  · exact .startFetchOwned hplaced hi

theorem Slice.ActsFor.startSnapshot (n : Agent) (x : Slice) : Slice.ActsFor env.sid enters i x (x.startSnapshot env i n) := by
  have hplan : x.records[i].keeps { x.records[i] with plan := .snapshotData } := Record.keeps_setPlan fun _ h => by cases h
  simp only [Slice.startSnapshot]
  split
  · split
    · exact .answerRetry _ _
    · exact (Slice.ActsFor.updRec hplan).trans (.probeAgent _ _ _ _ _)
  · exact (Slice.ActsFor.updRec hplan).trans (.orderRead _)

theorem Slice.ActsFor.startMaskedWrite (n : Agent) (x : Slice) :
    Slice.ActsFor env.sid enters i x (x.startMaskedWrite env i n) := by
  have hplan : x.records[i].keeps { x.records[i] with plan := .writeDone } := Record.keeps_setPlan fun _ h => by cases h
  simp only [Slice.startMaskedWrite]
  split
  · exact (Slice.ActsFor.respond _ x).trans (.finish _)
  · split
    · exact .updRec hplan
    · exact (Slice.ActsFor.updRec hplan).trans (.revokeAll _ _ _ _)
    · split
      · exact .answerRetry _ _
      · exact (Slice.ActsFor.updRec hplan).trans (.probeAgent _ _ _ _ _)

theorem Slice.ActsFor.startScrub (x : Slice) : Slice.ActsFor env.sid enters i x (x.startScrub env i) := by
  unfold Slice.startScrub
  split
  · exact .refl x
  · exact .revokeAll _ _ _ x

/-- The record in which a waiter's transaction starts, before its decision (R26). -/
def Waiter.record (env : Env) (w : Waiter) : Record :=
  Record.started w.originator w.kind w.line w.write (w.kind = .fetchShared && env.exclusive)

/-- A start is the record set, and its decision. -/
theorem Slice.startRecord_eq (env : Env) (i : RecIdx) (w : Waiter) (x : Slice) :
    Slice.startRecord env i w x =
      (let y : Slice := { x with records := x.records.set i (w.record env) }
      match w.originator, w.kind with
      | .agent a _, .fetchShared => y.startFetchShared env i a
      | .agent a _, .fetchOwned => y.startFetchOwned env i a
      | .agent a _, .promote => y.startPromote env i a
      | .agent a _, .snapshot => y.startSnapshot env i a
      | .agent a _, .maskedWrite => y.startMaskedWrite env i a
      | .management, .scrub => y.startScrub env i
      | _, _ => y.finish env i) := by
  rfl

/-- A start is its place, and then acts of the record. -/
theorem Slice.Acts.startRecord {w : Waiter}
    (hplaced : ∀ y, Slice.Placed env.sid i { x with records := x.records.set i (w.record env) } y → Slice.Acts env.sid enters a y) :
    Slice.Acts env.sid enters a (Slice.startRecord env i w x) := by
  have hi : ({ x with records := x.records.set i (w.record env) } : Slice).records[i].phase ≠ .free := by
    simp [Waiter.record, Record.started]
  have hplain := hplaced _ .plain
  rw [Slice.startRecord_eq]
  simp only
  split
  · exact .startFetchShared hplaced hi
  · exact .startFetchOwned hplaced hi
  · exact .startPromote hplaced hi
  · exact (Slice.ActsFor.startSnapshot _ _).after hplain hi
  · exact (Slice.ActsFor.startMaskedWrite _ _).after hplain hi
  · exact (Slice.ActsFor.startScrub _).after hplain hi
  · exact (Slice.ActsFor.finish _).after hplain hi

theorem Waiter.begins_record (w : Waiter) : (w.record env).begins := by
  simp [Waiter.record, Record.started, Record.begins, Record.free]

/-- A request or a waiter whose line is not held starts in a FREE record. -/
theorem Slice.Acts.startFree {w : Waiter} {b : Slice} (hb : x.Rests b) (hi : x.records[i].phase = .free)
    (hfree : x.held w.line = false) (hline : enters w.line ∨ w ∈ x.waitQueue) :
    Slice.Acts env.sid enters x (Slice.startRecord env i w b) := by
  refine .startRecord fun y hy => ?_
  refine (Slice.Act.start b i (w.record env) y hb hi hfree w.begins_record ?_ hy).acts
  exact hline.imp_right fun h => .inl ⟨w, h, rfl⟩

/-! ## A record's end -/

theorem takeFirst_some {α : Type} {p : α → Bool} {l q : List α} {w : α} (h : takeFirst p l = some (w, q)) :
    p w = true ∧ w ∈ l ∧ q.Sublist l := by
  induction l generalizing q with
  | nil => cases h
  | cons v l ih =>
    simp only [takeFirst] at h
    split at h
    · next hv =>
      cases h
      exact ⟨hv, List.mem_cons_self, List.sublist_cons_self _ _⟩
    · obtain ⟨⟨w', q'⟩, hw, heq⟩ := Option.map_eq_some_iff.1 h
      obtain ⟨rfl, rfl⟩ : w' = w ∧ v :: q' = q := by simpa using heq
      obtain ⟨hp, hm, hs⟩ := ih hw
      exact ⟨hp, List.mem_cons_of_mem _ hm, hs.cons_cons _⟩

/-- The slice with record i ended, before its record is given on (R20, R28, R127). -/
def Slice.endedSlice (sid : SliceId) (i : RecIdx) (x : Slice) : Slice :=
  { x.replaceRecord sid i Record.free with
    engine := { x.engine with jobs := x.engine.jobs.map (Job.recallEnded x.records[i]) } }

/-- What the end of a reservation leaves. -/
theorem Slice.dropReservation_eq (x : Slice) (sid : SliceId) (i : RecIdx) :
    x.dropReservation sid i = { x with dir := (x.dropReservation sid i).dir } := by
  simp only [Slice.dropReservation]
  split
  · rfl
  · split <;> rfl

/-- The directory after the end of a reservation (R20). -/
theorem Slice.dropReservation_dir (x : Slice) (sid : SliceId) (i : RecIdx) :
    (x.dropReservation sid i).dir =
      match x.reservationOf x.records[i].line with
      | none => x.dir
      | some (w, h) =>
        if h = handleOf sid i then
          Sparse.put DirSet.empty x.dir (setOf x.records[i].line) ((x.getSet (setOf x.records[i].line)).setWay w .empty)
        else x.dir := by
  simp only [Slice.dropReservation]
  split
  · next hres => simp only [hres]
  · next hres =>
    simp only [hres]
    split <;> rfl

/-- The end of a reservation depends on the directory and on the record alone. -/
theorem Slice.dropReservation_dir_congr {sid : SliceId} {i : RecIdx} (hd : y.dir = x.dir) (hr : y.records[i] = x.records[i]) :
    (y.dropReservation sid i).dir = (x.dropReservation sid i).dir := by
  simp only [Slice.dropReservation_dir, Slice.reservationOf, Slice.getSet, hd, hr]

/-- The end of a record: it is freed, and goes to the oldest waiter for its line, or to the oldest whose line is not held (R28, R36,
R37). -/
theorem Slice.endRecord_eq (env : Env) (i : RecIdx) (x : Slice) :
    x.endRecord env i =
      match takeFirst (fun w => w.line = x.records[i].line) x.waitQueue with
      | some (w, q) => Slice.startRecord env i w { x.endedSlice env.sid i with waitQueue := q }
      | none =>
        match takeFirst (x.endedSlice env.sid i).eligible x.waitQueue with
        | some (w, q) => Slice.startRecord env i w { x.endedSlice env.sid i with waitQueue := q }
        | none => x.endedSlice env.sid i := by
  simp only [Slice.endRecord, Slice.endedSlice, Slice.replaceRecord]
  rw [Slice.dropReservation_eq] <;> rfl

/-- A record that has no operation left ends. -/
theorem Slice.Acts.endedSlice (hi : x.records[i].phase ≠ .free) (hops : x.noOps i = true) :
    Slice.Acts sid enters x (x.endedSlice sid i) := by
  have heng : (x.replaceRecord sid i Record.free).engine = x.engine := by
    rw [Slice.replaceRecord, Slice.dropReservation_eq]
  refine (Slice.Act.ended i hi hops).acts.trans (.ofEngine rfl rfl rfl rfl (by rw [heng]; exact id) ?_)
  rw [heng]
  exact fun _ h => h

theorem Slice.Acts.endRecord (hi : x.records[i].phase ≠ .free) (hops : x.noOps i = true) :
    Slice.Acts env.sid enters x (x.endRecord env i) := by
  rw [Slice.endRecord_eq]
  have hend : Slice.Acts env.sid enters x (x.endedSlice env.sid i) := .endedSlice hi hops
  have hfree : (x.endedSlice env.sid i).records[i].phase = .free := by simp [Slice.endedSlice, Slice.replaceRecord, Record.free]
  have hqueue : (x.endedSlice env.sid i).waitQueue = x.waitQueue := by
    rw [Slice.endedSlice, Slice.replaceRecord, Slice.dropReservation_eq]
  split
  · next w q hw =>
    obtain ⟨hline, -, hq⟩ := takeFirst_some hw
    have hline : w.line = x.records[i].line := by simpa using hline
    refine .startRecord fun y hy => ?_
    refine Slice.Acts.trans (y := { x with
      engine := { x.engine with jobs := x.engine.jobs.map (Job.recallEnded x.records[i]) }, waitQueue := q }) ?_ ?_
    · exact (Slice.Act.unqueue q hq).acts.trans (.ofEngine rfl rfl rfl rfl id fun _ h => h)
    · refine (Slice.Act.hand (x := { x with
        engine := { x.engine with jobs := x.engine.jobs.map (Job.recallEnded x.records[i]) }, waitQueue := q })
        i (w.record env) y hi hline w.begins_record ?_).acts
      have heq : ({ x.endedSlice env.sid i with
            waitQueue := q, records := (x.endedSlice env.sid i).records.set i (w.record env) } : Slice)
          = Slice.replaceRecord env.sid i (w.record env) { x with
            engine := { x.engine with jobs := x.engine.jobs.map (Job.recallEnded x.records[i]) }, waitQueue := q } := by
        have hdir := Slice.dropReservation_dir_congr (sid := env.sid) (i := i) (x := x) (y := { x with
          engine := { x.engine with jobs := x.engine.jobs.map (Job.recallEnded x.records[i]) }, waitQueue := q }) rfl rfl
        rw [Slice.endedSlice, Slice.replaceRecord, Slice.replaceRecord, Slice.dropReservation_eq x, Slice.dropReservation_eq { x with
          engine := { x.engine with jobs := x.engine.jobs.map (Job.recallEnded x.records[i]) }, waitQueue := q }, hdir]
        simp
      exact heq ▸ hy
  · split
    · next w q hw =>
      obtain ⟨hline, hm, hq⟩ := takeFirst_some hw
      refine hend.trans (.startFree ⟨rfl, rfl, rfl, ?_, rfl, fun _ h => h⟩ hfree ?_ (.inr ?_))
      · exact hqueue ▸ hq
      · simpa [Slice.eligible] using hline
      · exact hqueue ▸ hm
    · exact hend

end

end Sys2Proof.Machine

/-!
The rest of a slice event as acts: a record going on by itself, the arbiter and the sweep engine, the loop of `settle`, and what the
messages, notices and commands of a slice do.
-/

namespace Sys2Proof.Machine

section
variable {sid : SliceId} {enters : LineAddr → Prop} {env : Env} {i : RecIdx} {x y z : Slice}

/-! ## A record going on -/

theorem Record.keeps_confirm {r : Record} (hi : r.phase ≠ .free) :
    r.keeps { r with phase := .confirm, buffer := none, deadline := .stopped } :=
  ⟨⟨fun h => (nomatch h), fun h => absurd h hi⟩, rfl, .inl rfl, fun _ h => .inr h⟩

/-- A grant is sent, its entry made, and its record confirmed (R60, R61). -/
theorem Slice.ActsFor.sendGrant_go {e : Entry} {n : Agent} {m : Response}
    (he : ∀ b, e = .shared b → x.records[i].plan = .grantShared b) :
    Slice.ActsFor env.sid enters i x (Slice.sendGrant.go env i x.records[i].line e n m x) := by
  unfold Slice.sendGrant.go
  refine .trans (.trans (.send n (.response m) x) (fun hi => ⟨(Slice.Act.grant i e hi he).acts, ?_⟩)) fun hi => ?_
  · rwa [Slice.grantEntry_records]
  · exact Slice.ActsFor.updRec (Record.keeps_confirm hi) hi

theorem Slice.ActsFor.sendGrant (x : Slice) : Slice.ActsFor env.sid enters i x (x.sendGrant env i) := by
  simp only [Slice.sendGrant]
  split
  · next hplan _ => exact .sendGrant_go fun b hb => Entry.shared.inj hb ▸ hplan
  · exact .sendGrant_go fun b hb => by cases hb
  · exact .sendGrant_go fun b hb => by cases hb
  · exact .finish x

theorem AgentSet.single_ne_zero (n : Agent) : AgentSet.single n ≠ 0#8 := by revert n; decide

theorem Slice.ActsFor.fencedEdit (x : Slice) : Slice.ActsFor env.sid enters i x (x.fencedEdit env i) := by
  simp only [Slice.fencedEdit]
  refine .foldl (fun y w => ?_) _ x
  have hsole (b : AgentSet) (hb : Entry.shared (AgentSet.single w.agent) = .shared b) : b ≠ 0#8 :=
    Entry.shared.inj hb ▸ AgentSet.single_ne_zero _
  split
  · exact .removeAgent _ _ y
  · exact .rewriteEntry _ _ y hsole
  · exact .rewriteEntry _ _ y hsole
  · exact .freeEntry _ y
  · exact .freeEntry _ y
  · exact .freeEntry _ y
  · exact .refl y

/-- Some agents leave an entry, one after another (R127). -/
theorem Slice.ActsFor.removeAgents (l : LineAddr) (as : List Agent) (x : Slice) :
    Slice.ActsFor sid enters i x (as.foldl (fun y n => y.removeAgent sid l n) x) := .foldl (fun y n => .removeAgent l n y) as x

theorem Slice.ActsFor.recallEdit (x : Slice) : Slice.ActsFor env.sid enters i x (x.recallEdit env i) := by
  simp only [Slice.recallEdit]
  refine .trans (.removeAgents x.records[i].line (AgentSet.toList x.records[i].revokeSet) x) ?_
  split
  · split
    · refine .trans (fun hi => ⟨(Slice.Act.order _ .engine fun _ h => by cases h).acts, ?_⟩) (.freeEntry _ _)
      exact hi
    · exact .refl _
  · exact .removeAgents _ _ _
  · exact .refl _

/-- What leaves a record's operations as they are: the edits at its end order nothing for it. -/
theorem Slice.freeEntry_submission (x : Slice) (sid : SliceId) (l : LineAddr) : (x.freeEntry sid l).submission = x.submission := by
  unfold Slice.freeEntry; split <;> rfl

theorem Slice.rewriteEntry_submission (x : Slice) (l : LineAddr) (e : Entry) : (x.rewriteEntry l e).submission = x.submission := by
  unfold Slice.rewriteEntry; split <;> rfl

theorem Slice.removeAgent_submission (x : Slice) (sid : SliceId) (l : LineAddr) (n : Agent) :
    (x.removeAgent sid l n).submission = x.submission := by
  obtain h | h | ⟨a, -, h⟩ := x.removeAgent_eq sid l n <;> rw [h]
  · exact x.freeEntry_submission sid l
  · exact x.rewriteEntry_submission l _

/-- A fold of steps that each keep a value keeps it. -/
theorem Slice.foldl_keeps {α β : Type} {f : Slice → α → Slice} (g : Slice → β) (h : ∀ x a, g (f x a) = g x) (l : List α) (x : Slice) :
    g (l.foldl f x) = g x := by
  induction l generalizing x with
  | nil => rfl
  | cons a l ih => exact (ih (f x a)).trans (h x a)

theorem Slice.fencedEdit_submission (x : Slice) : (x.fencedEdit env i).submission = x.submission := by
  simp only [Slice.fencedEdit]
  refine Slice.foldl_keeps Slice.submission (fun y w => ?_) _ x
  split
  · exact y.removeAgent_submission _ _ _
  · exact y.rewriteEntry_submission _ _
  · exact y.rewriteEntry_submission _ _
  · exact y.freeEntry_submission _ _
  · exact y.freeEntry_submission _ _
  · exact y.freeEntry_submission _ _
  · rfl

theorem Slice.noOps_congr (h : y.submission = x.submission) (i : RecIdx) : y.noOps i = x.noOps i := by
  simp only [Slice.noOps, h]

theorem Slice.removeAgents_noOps (l : LineAddr) (as : List Agent) (x : Slice) (j : RecIdx) :
    (as.foldl (fun y n => y.removeAgent sid l n) x).noOps j = x.noOps j :=
  Slice.foldl_keeps (fun y => y.noOps j) (fun y n => Slice.noOps_congr (y.removeAgent_submission sid l n) j) as x

theorem Slice.recallEdit_noOps (x : Slice) (j : RecIdx) : (x.recallEdit env i).noOps j = x.noOps j := by
  simp only [Slice.recallEdit]
  rw [← Slice.removeAgents_noOps (sid := env.sid) x.records[i].line (AgentSet.toList x.records[i].revokeSet) x j]
  split
  · split
    · rw [Slice.noOps_congr (Slice.freeEntry_submission _ _ _)]
      simp [Slice.noOps]
    · rfl
  · exact Slice.removeAgents_noOps _ _ _ j
  · rfl

/-- What a record does by itself is a chain of acts (R28, R59, R99, R107, R127, R206). -/
theorem Slice.Acts.progress (h : x.progress env i = some y) : Slice.Acts env.sid enters x y := by
  simp only [Slice.progress] at h
  split at h
  · cases h
  · next hi =>
    have caching (hcaching : (if x.records[i].grantReady = true then some (x.sendGrant env i)
        else if (x.records[i].originFenced && !x.records[i].awaits && !x.records[i].memRead && x.records[i].victim.isNone) = true then
          match x.records[i].lastWrite, x.records[i].ordered with
          | some d, false =>
            some ((x.order (.fullWrite x.records[i].line d) (.record i)).updRec env i fun r => { r with ordered := true })
          | _, _ => if x.noOps i = true then some ((x.fencedEdit env i).endRecord env i) else none
        else none) = some y) : Slice.Acts env.sid enters x y := by
      split at hcaching
      · exact Option.some.inj hcaching ▸ (Slice.ActsFor.sendGrant x).acts hi
      · split at hcaching
        · split at hcaching
          · exact Option.some.inj hcaching ▸ ((Slice.ActsFor.order _ x).trans (.updRec (Record.keeps_refl _))).acts hi
          · split at hcaching
            · next hops =>
              obtain ⟨hedit, hi'⟩ := Slice.ActsFor.fencedEdit (enters := enters) x hi
              exact Option.some.inj hcaching ▸ hedit.trans (.endRecord hi' ((Slice.noOps_congr x.fencedEdit_submission i).trans hops))
            · cases hcaching
        · cases hcaching
    split at h
    · split at h
      · next hops => exact Option.some.inj h ▸ .endRecord hi hops
      · cases h
    · split at h
      · cases h
      · split at h
        · exact caching h
        · exact caching h
        · exact caching h
        · split at h
          · cases h
          · split at h
            · exact Option.some.inj h ▸ (Slice.ActsFor.finish x).acts hi
            · split at h
              · exact Option.some.inj h ▸ ((Slice.ActsFor.respond _ x).trans (.finish _)).acts hi
              · cases h
        · split at h
          · split at h
            · exact Option.some.inj h ▸ (Slice.ActsFor.orderWrite x).acts hi
            · cases h
          · split at h
            · cases h
            · refine Option.some.inj h ▸ Slice.Acts.trans ?_ (.finish i _)
              split
              · exact .refl x
              · exact (Slice.ActsFor.respond _ x).acts hi
        · split at h
          · cases h
          · split at h
            · exact Option.some.inj h ▸ (Slice.ActsFor.orderWrite x).acts hi
            · split at h
              · cases h
              · exact Option.some.inj h ▸ Slice.Acts.trans
                  (.ofPaths (y := { x with toEngine := x.toEngine ++ [⟨.done, none⟩] }) rfl rfl rfl rfl rfl) (.finish i _)
        · split at h
          · cases h
          · next hops =>
            obtain ⟨hedit, hi'⟩ := Slice.ActsFor.recallEdit (enters := enters) x hi
            refine Option.some.inj h ▸ hedit.trans (.endRecord hi' (x.recallEdit_noOps i |>.trans ?_))
            revert hops
            cases x.noOps i <;> simp

theorem Slice.Acts.progressAny (h : x.progressAny env = some y) : Slice.Acts env.sid enters x y := by
  obtain ⟨j, -, hj⟩ := List.exists_of_findSome?_eq_some h
  exact .progress hj

/-- An eviction that completes frees the victim's entry and releases its line (R114). -/
theorem Slice.Acts.completeEviction (x : Slice) (i : RecIdx) : Slice.Acts env.sid enters x (x.completeEviction env i) :=
  (Slice.Act.free _).acts.trans (.updRec ⟨.rfl, rfl, .inr rfl, fun _ h => .inr h⟩)

/-! ## The arbiter and the engine -/

theorem Slice.Acts.arbitrate (h : x.arbitrate env = some y) : Slice.Acts env.sid enters x y := by
  unfold Slice.arbitrate at h
  split at h
  · cases h
  · next w q hw =>
    obtain ⟨⟨j, s'⟩, hfree, rfl⟩ := Option.map_eq_some_iff.1 h
    obtain ⟨hj, p, rfl⟩ := Slice.takeFree_some hfree
    obtain ⟨hline, hm, hq⟩ := takeFirst_some hw
    exact .startFree ⟨rfl, rfl, rfl, hq, rfl, fun _ h => h⟩ hj (by simpa [Slice.eligible] using hline) (.inr hm)

theorem Slice.Acts.fenceAction (l : LineAddr) (x : Slice) (n : Agent) : Slice.Acts sid enters x (x.fenceAction sid l n) := by
  unfold Slice.fenceAction
  split
  · exact .removeAgent l n x
  · split
    · exact (Slice.Act.order _ .engine fun _ h => by cases h).acts.trans (.freeEntry l _)
    · exact .refl x
  · exact .refl x

theorem Slice.Acts.applyAtWay (p : Nat) (x : Slice) (w : WayIdx) : Slice.Acts sid enters x (x.applyAtWay sid p w) := by
  unfold Slice.applyAtWay
  split
  · next t _ _ =>
    dsimp only
    split
    · exact .refl x
    · have hfence : Slice.Acts sid enters x (x.engine.fenceAgents.foldl (Slice.fenceAction sid (lineOf sid p t)) x) :=
        .foldl (fun y n => .fenceAction _ y n) _ x
      split
      · refine hfence.tail (.engine _ rfl rfl rfl rfl id fun l hl => ?_)
        obtain hl | hl := List.mem_append.1 hl
        · exact .inl hl
        · exact .inr (List.mem_singleton.1 hl ▸ sliceOf_lineOf sid p t)
      · exact hfence
  · exact .refl x

theorem Slice.Acts.applyJobs (x : Slice) : Slice.Acts sid enters x (x.applyJobs sid) := by
  have hvisit (z : Slice) (v : VisitState) (hz : Slice.Acts sid enters x z) :
      Slice.Acts sid enters x { z with engine := { z.engine with visit := v } } :=
    hz.trans (.ofEngine rfl rfl rfl rfl id fun _ h => h)
  have hways (z : Slice) (p : Nat) (hz : Slice.Acts sid enters x z) :
      Slice.Acts sid enters x ((List.finRange 8).foldl (Slice.applyAtWay sid p) z) :=
    hz.trans (.foldl (fun y w => .applyAtWay _ y w) _ _)
  unfold Slice.applyJobs
  exact hvisit _ _ (hways _ _ (.ofEngine rfl rfl rfl rfl id (List.nil_subset _)))

/-- The record in which a recall starts (R125). -/
def Slice.recallRecord (x : Slice) (l : LineAddr) (e : Entry) : Record :=
  let revoke := if x.engine.quiesceApplied then e.agents else e.agents &&& x.engine.drainAgents
  { Record.started .sweep .recall l none false with
    revokeSet := revoke
    servesDrain := revoke &&& x.engine.drainJobs
    servesQuiesce := x.engine.quiesceApplied
    thisVisit := true }

/-- A job that a recall with the revoke set will serve has one recall in flight more (R125). -/
def Job.recallStarted (revoke : AgentSet) (j : Job) : Job :=
  let served := match j.kind with
    | .drain n => AgentSet.mem revoke n
    | .fence _ => false
    | .quiesce _ => j.applied
  if served then { j with inFlight := j.inFlight + 1 } else j

/-- The slice with the jobs told of a recall that starts (R125). -/
def Slice.countRecall (revoke : AgentSet) (x : Slice) : Slice :=
  { x with engine := { x.engine with jobs := x.engine.jobs.map (Job.recallStarted revoke) } }

/-- The start of a recall: the jobs are told, the record is set, the agents are revoked (R125). -/
theorem Slice.startRecall_eq (env : Env) (i : RecIdx) (l : LineAddr) (x : Slice) :
    x.startRecall env i l =
      match x.entryOf l with
      | none => x
      | some (_, e) =>
        Slice.revokeAll env i false e (x.recallRecord l e).revokeSet
          { x.countRecall (x.recallRecord l e).revokeSet with
            records := (x.countRecall (x.recallRecord l e).revokeSet).records.set i (x.recallRecord l e) } := rfl

/-- A recall starts in a FREE record, for a line that was pending and is not held (R122, R125). -/
theorem Slice.Acts.startRecall {l : LineAddr} {b : Slice} (hb : x.Rests b) (hi : x.records[i].phase = .free)
    (hfree : x.held l = false) (hline : l ∈ x.engine.pendingLines) : Slice.Acts env.sid enters x (b.startRecall env i l) := by
  rw [Slice.startRecall_eq]
  split
  · refine Slice.Acts.trans (y := { x with waitQueue := b.waitQueue }) (Slice.Act.unqueue _ hb.waitQueue).acts ?_
    exact .ofEngine hb.dir hb.records rfl hb.submission (fun h => hb.position ▸ h) hb.pendingLines
  · next w e _ =>
    have hbegins : (b.recallRecord l e).begins := ⟨fun h => (nomatch h), rfl, rfl⟩
    refine (Slice.ActsFor.revokeAll (i := i) _ _ _ _).after (Slice.Act.acts ?_) (by simpa using hbegins.1)
    exact .start (b.countRecall (b.recallRecord l e).revokeSet) i (b.recallRecord l e) _
      ⟨hb.dir, hb.records, hb.submission, hb.waitQueue, hb.position, hb.pendingLines⟩ hi hfree hbegins (.inr (.inr hline)) .plain

theorem Slice.Acts.examine (h : x.examine env = some y) : Slice.Acts env.sid enters x y := by
  unfold Slice.examine at h
  split at h
  · exact Option.some.inj h ▸ .ofEngine rfl rfl rfl rfl id fun _ h => h
  · next l ls hpending =>
    have hrest : ls ⊆ x.engine.pendingLines := hpending ▸ List.subset_cons_self l ls
    split at h
    · cases h
    · split at h
      · cases h
      · next j s' hfree =>
        obtain ⟨hj, p, rfl⟩ := Slice.takeFree_some hfree
        split at h
        · exact Option.some.inj h ▸ .ofEngine rfl rfl rfl rfl id (List.nil_subset _)
        · next hheld =>
          split at h
          · refine Option.some.inj h ▸ .startRecall ⟨rfl, rfl, rfl, .refl _, rfl, hrest⟩ hj (by simpa using hheld) ?_
            exact hpending ▸ List.mem_cons_self
          · exact Option.some.inj h ▸ .ofEngine rfl rfl rfl rfl id hrest

theorem Record.keeps_thisVisit (r : Record) : r.keeps { r with thisVisit := false } := r.keeps_refl

/-- Every record changes by a function that keeps what it holds. -/
theorem Slice.Acts.mapRecords {f : Record → Record} (h : ∀ r : Record, r.keeps (f r)) (x : Slice) :
    Slice.Acts sid enters x { x with records := x.records.map f } :=
  (Slice.Act.records _ fun j => by simpa using h x.records[j]).acts

theorem Slice.Acts.leaveSet (x : Slice) : Slice.Acts sid enters x x.leaveSet := by
  simp only [Slice.leaveSet]
  refine Slice.Acts.trans (.mapRecords Record.keeps_thisVisit x) (.ofEngine rfl rfl rfl rfl (fun _ => ?_) fun _ h => h)
  exact Nat.mod_lt _ (by decide)

theorem Slice.Acts.walkAct (h : x.walkAct env = some y) : Slice.Acts env.sid enters x y := by
  unfold Slice.walkAct at h
  split at h
  · split at h
    · exact Option.some.inj h ▸ .applyJobs x
    · cases h
  · exact .examine h
  · split at h
    · exact Option.some.inj h ▸ .leaveSet x
    · cases h
  · cases h
  · cases h

theorem Slice.Acts.completeJob (h : x.completeJob = some y) : Slice.Acts sid enters x y := by
  unfold Slice.completeJob at h
  split at h
  · cases h
  · next j js _ =>
    have hjobs : Slice.Acts sid enters x { x with engine := { x.engine with jobs := js } } := .ofEngine rfl rfl rfl rfl id fun _ h => h
    refine Option.some.inj h ▸ hjobs.trans ?_
    split <;> exact .ofPaths rfl rfl rfl rfl rfl

theorem Slice.Acts.joinJob (k : JobKind) (x : Slice) : Slice.Acts sid enters x (x.joinJob k) := .ofEngine rfl rfl rfl rfl id fun _ h => h

theorem Slice.Acts.quiesceJoin (h : x.quiesceJoin = some y) : Slice.Acts sid enters x y := by
  unfold Slice.quiesceJoin at h
  split at h
  · cases h
  · split at h
    · exact Option.some.inj h ▸ Slice.Acts.trans
        (.ofPaths (y := { x with pendingQuiesce := none }) rfl rfl rfl rfl rfl) (.joinJob _ _)
    · cases h

theorem Slice.Acts.engineAct (h : x.engineAct env = some y) : Slice.Acts env.sid enters x y := by
  unfold Slice.engineAct at h
  split at h
  · next hc => exact Option.some.inj h ▸ .completeJob hc
  · split at h
    · next hw => exact Option.some.inj h ▸ .walkAct hw
    · exact .quiesceJoin h

/-! ## The slice goes on -/

/-- Whatever a slice does in going on is a chain of acts. -/
theorem Slice.Acts.settle (eng : Bool) (fuel : Nat) (wake : Bool) (x : Slice) :
    Slice.Acts env.sid enters x (Slice.settle env eng fuel wake x) := by
  induction fuel generalizing wake x with
  | zero => exact .refl x
  | succ fuel ih =>
    unfold Slice.settle
    split
    · exact (Slice.Acts.completeEviction x _).trans (ih _ _)
    · split
      · split
        · next h => exact (Slice.Acts.arbitrate h).trans (ih _ _)
        · exact ih _ _
      · split
        · next h => exact (Slice.Acts.progressAny h).trans (ih _ _)
        · split
          · split
            · next h => exact (Slice.Acts.engineAct h).trans (ih _ _)
            · exact .refl x
          · exact .refl x

theorem Slice.Acts.goOn (wake : Bool) (x : Slice) : Slice.Acts env.sid enters x (x.goOn env wake) := .settle true _ wake x

end

end Sys2Proof.Machine

/-!
What the messages, notices and commands that a slice takes do at it, as acts: every event of a slice is a chain of acts, and only a
request or a Scrub brings a line.
-/

namespace Sys2Proof.Machine

section
variable {sid : SliceId} {enters : LineAddr → Prop} {env : Env} {i : RecIdx} {x y z : Slice}

/-! ## Requests and returns -/

/-- A request starts in a FREE record or waits (R32). -/
theorem Slice.Acts.startOrQueue {w : Waiter} (hline : enters w.line) (h : x.startOrQueue env w = some y) :
    Slice.Acts env.sid enters x y := by
  simp only [Slice.startOrQueue] at h
  split at h
  · next j s' hstart =>
    split at hstart
    · cases hstart
    · next hheld =>
      obtain ⟨hj, p, rfl⟩ := Slice.takeFree_some hstart
      have hfree : x.held w.line = false := by
        cases hx : x.held w.line
        · rfl
        · simp [hx] at hheld
      exact Option.some.inj h ▸ .startFree ⟨rfl, rfl, rfl, .refl _, rfl, fun _ h => h⟩ hj hfree (.inl hline)
  · split at h
    · next hlen => exact Option.some.inj h ▸ (Slice.Act.queue w hlen hline).acts
    · cases h

theorem Slice.Acts.requestArrives {n : Agent} {tag : Tag} {w : Waiter} (hline : enters w.line) (x : Slice) :
    Slice.Acts env.sid enters x (x.requestArrives env n tag w) := by
  unfold Slice.requestArrives
  split
  · exact .refl x
  · split
    · exact .send _ _ x
    · split
      · exact .send _ _ x
      · cases h : x.startOrQueue env w with
        | none => exact .send _ _ x
        | some y => exact .startOrQueue hline h

theorem Slice.ActsFor.fillBuffer (b : Buffer) (x : Slice) : Slice.ActsFor sid enters i x (x.fillBuffer env i b) := by
  unfold Slice.fillBuffer
  split
  · exact .updRec (Record.keeps_refl _)
  · exact .refl x

theorem Slice.ActsFor.cleanSource (x : Slice) : Slice.ActsFor sid enters i x (x.cleanSource env i) := by
  unfold Slice.cleanSource
  split
  · exact .orderRead x
  · exact .refl x

theorem Slice.ActsFor.returnSource (d : Option Poisoned) (x : Slice) :
    Slice.ActsFor sid enters i x (x.returnSource env i d) := by
  unfold Slice.returnSource
  refine .trans ?_ (.updRec (Record.keeps_replan _))
  split
  · exact .fillBuffer _ x
  · exact .cleanSource x

/-- A record that holds a line is in use (R8). -/
theorem Slice.holder_some {l : LineAddr} (h : x.holder l = some i) : x.records[i].holds l := by
  have hi := List.find?_some h
  simpa [Record.holds] using hi

theorem Slice.holderOf_some {l : LineAddr} {v : Bool} (h : x.holderOf l = some (i, v)) : x.records[i].holds l := by
  obtain ⟨j, hj, heq⟩ := Option.map_eq_some_iff.1 h
  cases heq
  exact Slice.holder_some hj

theorem Slice.Acts.absorb (n : Agent) (l : LineAddr) (d : Option Poisoned) (x : Slice) :
    Slice.Acts sid enters x (x.absorb env n l d) := by
  unfold Slice.absorb
  split
  · exact .refl x
  · next j v hholder =>
    dsimp only
    split
    · exact .refl x
    · next st _ =>
      refine Slice.ActsFor.acts (i := j) (.trans (.moveWaitOf (env := env) v n st x) ?_) (Slice.holderOf_some hholder).1
      split
      · exact .refl _
      · exact .returnSource d _

theorem Slice.Acts.orderReturn (l : LineAddr) (d : Option Poisoned) (x : Slice) :
    Slice.Acts sid enters x (x.orderReturn l d) := by
  unfold Slice.orderReturn
  split
  · exact (Slice.Act.order _ .accepted fun _ h => by cases h).acts
  · exact .refl x

theorem Slice.Acts.returnArrives (n : Agent) (tag : Tag) (l : LineAddr) (d : Option Poisoned) (x : Slice) :
    Slice.Acts env.sid enters x (x.returnArrives env n tag l d) := by
  unfold Slice.returnArrives
  split
  · exact .refl x
  · split
    · exact (((Slice.Acts.orderReturn l d x).trans (.freeEntry l _)).trans (.send _ _ _)).trans (.absorb n l d _)
    · exact .send _ _ x

/-! ## Replies, GrantAcks, deadlines and read completions -/

/-- A reply names a record in GATHER (R71). -/
theorem Slice.replyWait_some {n : Agent} {h : Handle} {l : LineAddr} {v : Bool} {w : Wait}
    (hw : x.replyWait n h l = some (i, v, w)) : x.records[i].phase = .gather := by
  simp only [Slice.replyWait] at hw
  split at hw
  · next hphase =>
    have : i = handleIdx h := by
      split at hw
      · obtain ⟨_, -, heq⟩ := Option.map_eq_some_iff.1 hw
        cases heq
        rfl
      · split at hw
        · obtain ⟨_, -, heq⟩ := Option.map_eq_some_iff.1 hw
          cases heq
          rfl
        · cases hw
    exact this ▸ hphase
  · cases hw

theorem Slice.ActsFor.dirtySource (l : LineAddr) (d : Poisoned) (v : Bool) (x : Slice) :
    Slice.ActsFor sid enters i x (x.dirtySource env l d i v) := by
  unfold Slice.dirtySource
  split
  · exact .order _ x
  · split
    · exact .order _ x
    · exact (Slice.ActsFor.fillBuffer _ x).trans (.order _ _)
    · exact .fillBuffer _ x
    · exact .fillBuffer _ x
    · exact .fillBuffer _ x
    · exact .fillBuffer _ x
    · exact .refl x

theorem Slice.ActsFor.takeReply {n : Agent} {l : LineAddr} {r : Reply} {v : Bool} {w : Wait}
    (h : x.takeReply env n l r i v w = some y) : Slice.ActsFor env.sid enters i x y := by
  cases r with
  | gone =>
    simp only [Slice.takeReply, Slice.takeGone] at h
    split at h
    · exact Option.some.inj h ▸ (Slice.ActsFor.moveWaitOf _ _ _ x).trans (.removeAgent _ _ _)
    · exact Option.some.inj h ▸ .moveWaitOf _ _ _ x
    · exact Option.some.inj h ▸ .moveWaitOf _ _ _ x
    · cases h
  | clean =>
    simp only [Slice.takeReply, Slice.takeClean] at h
    split at h
    · exact Option.some.inj h ▸ .moveWaitOf _ _ _ x
    · refine Option.some.inj h ▸ (Slice.ActsFor.moveWaitOf (env := env) v n (.settled .clean) x).trans ?_
      split
      · exact .refl _
      · exact .cleanSource _
    · cases h
  | dirty d =>
    simp only [Slice.takeReply, Slice.takeDirty] at h
    split at h
    · exact Option.some.inj h ▸ (Slice.ActsFor.moveWaitOf _ _ _ x).trans (.dirtySource _ _ _ _)
    · cases h

theorem Slice.Acts.replyArrives (n : Agent) (h : Handle) (l : LineAddr) (r : Reply) (x : Slice) :
    Slice.Acts env.sid enters x (x.replyArrives env n h l r) := by
  unfold Slice.replyArrives
  split
  · exact .refl x
  · cases hw : x.replyWait n h l with
    | none => exact .send _ _ x
    | some q =>
      obtain ⟨j, v, w⟩ := q
      have hj : x.records[j].phase ≠ .free := by rw [Slice.replyWait_some hw]; exact fun h => nomatch h
      simp only [Option.bind_some]
      cases ht : x.takeReply env n l r j v w with
      | none => exact .send _ _ x
      | some y => exact (Slice.ActsFor.takeReply ht).acts hj

theorem Slice.Acts.grantAckArrives (n : Agent) (h : Handle) (x : Slice) :
    Slice.Acts sid enters x (x.grantAckArrives env n h) := by
  simp only [Slice.grantAckArrives]
  split
  · exact .refl x
  · split
    · exact .finish _ x
    · exact .send _ _ x

theorem Slice.Acts.expire (i : RecIdx) (x : Slice) : Slice.Acts sid enters x (x.expire env i) := by
  simp only [Slice.expire]
  split
  · have hexpired : Slice.Acts sid enters x { x with records := x.records.set i { x.records[i] with deadline := .expired } } :=
      (Slice.Act.setRecord (r := { x.records[i] with deadline := .expired }) (Record.keeps_refl _)).acts
    exact hexpired.trans (.foldl (fun y n => .send _ _ y) _ _)
  · exact .refl x

theorem Slice.Acts.readCompletes (c : Completion) (x : Slice) : Slice.Acts sid enters x (x.readCompletes env c) :=
  .updRec (Record.keeps_refl _)

/-! ## Notices -/

theorem Slice.Acts.fenceRecord (n : Agent) (x : Slice) (i : RecIdx) : Slice.Acts env.sid enters x (x.fenceRecord env n i) := by
  simp only [Slice.fenceRecord]
  split
  · exact .refl x
  · next hi =>
    have hmark : Slice.ActsFor env.sid enters i x
        (if x.records[i].isFrom n then x.updRec env i fun r => { r with originFenced := true } else x) := by
      split
      · exact .updRec (Record.keeps_refl _)
      · exact .refl x
    have hend (y : Slice) (c : Bool) : Slice.ActsFor env.sid enters i y (if c then y.finish env i else y) := by
      split
      · exact .finish y
      · exact .refl y
    exact (((hmark.trans (hend _ _)).trans (.settleFenced _ _ _)).trans (.settleFenced _ _ _)).acts hi

theorem Slice.Acts.dropDrainJob (n : Agent) (x : Slice) : Slice.Acts sid enters x (x.dropDrainJob n) := by
  have hrecords : Slice.Acts sid enters x { x with
      records := x.records.map fun r => { r with servesDrain := AgentSet.erase r.servesDrain n } } :=
    .mapRecords (f := fun r => { r with servesDrain := AgentSet.erase r.servesDrain n }) (fun r => r.keeps_refl) x
  exact hrecords.trans (.ofEngine rfl rfl rfl rfl id fun _ h => h)

theorem Slice.Acts.fenceNotice (n : Agent) (x : Slice) : Slice.Acts env.sid enters x (x.fenceNotice env n) := by
  have hcut : Slice.Acts env.sid enters x { x with
      fenced := AgentSet.insert x.fenced n
      draining := AgentSet.erase x.draining n
      waitQueue := x.waitQueue.filter fun w => !(w.isFrom n) } :=
    (Slice.Act.unqueue _ List.filter_sublist).acts.trans (.ofPaths rfl rfl rfl rfl rfl)
  have hrecords (y : Slice) : Slice.Acts env.sid enters y ((List.finRange 32).foldl (Slice.fenceRecord env n) y) :=
    .foldl (fun y j => .fenceRecord n y j) _ y
  exact (((hcut.trans (hrecords _)).trans (.settle false _ false _)).trans (.dropDrainJob n _)).trans (.joinJob _ _)

theorem Slice.Acts.drainNotice (n : Agent) (x : Slice) : Slice.Acts sid enters x (x.drainNotice n) := by
  have hcut : Slice.Acts sid enters x { x with
      draining := AgentSet.insert x.draining n
      waitQueue := x.waitQueue.filter fun w => !(w.isFrom n) } :=
    (Slice.Act.unqueue _ List.filter_sublist).acts.trans (.ofPaths rfl rfl rfl rfl rfl)
  refine hcut.trans (.foldl (fun y w => ?_) _ _)
  unfold Slice.refuseWaiter
  split
  · exact .send _ _ y
  · exact .refl y
  · exact .refl y

/-! ## The command path and the engine's arrival -/

theorem Slice.Acts.withdraw (x : Slice) :
    Slice.Acts sid enters x (Slice.dropQuiesceJob { x with pendingQuiesce := none }).idleIfDone := by
  have hdrop : Slice.Acts sid enters x (Slice.dropQuiesceJob { x with pendingQuiesce := none }) :=
    .trans (.mapRecords (f := fun r => { r with servesQuiesce := false }) (fun r => r.keeps_refl) x)
      (.ofEngine rfl rfl rfl rfl id fun _ h => h)
  refine hdrop.trans ?_
  generalize Slice.dropQuiesceJob { x with pendingQuiesce := none } = y
  unfold Slice.idleIfDone
  split
  · exact .refl y
  · exact .trans (.mapRecords Record.keeps_thisVisit y) (.ofEngine rfl rfl rfl rfl id (List.nil_subset _))

theorem Slice.Acts.scrubArrives {l : LineAddr} (hline : enters l) (x : Slice) :
    Slice.Acts env.sid enters x
      ((x.startOrQueue env (scrubWaiter l)).getD { x with toEngine := x.toEngine ++ [⟨.noResource, none⟩] }) := by
  cases h : x.startOrQueue env (scrubWaiter l) with
  | none => exact .ofPaths rfl rfl rfl rfl rfl
  | some y => exact .startOrQueue (w := scrubWaiter l) hline h

theorem Slice.Acts.arriveAtSet (x : Slice) : Slice.Acts sid enters x x.arriveAtSet := by
  unfold Slice.arriveAtSet
  split
  · exact .ofEngine rfl rfl rfl rfl id fun _ h => h
  · exact .refl x

end

end Sys2Proof.Machine

/-!
The invariants of a slice that do not speak of its directory, act by act: the bounds (R31, R117), sole holders (R29), FREE records
without operations (R173), and the lines at home (R3).
-/

namespace Sys2Proof.Machine

section
variable {sid : SliceId} {enters : LineAddr → Prop} {i : RecIdx} {x y : Slice}

/-- What every act keeps, acts keep. -/
theorem Slice.Acts.keeps {P : Slice → Prop} (h : ∀ x y, Slice.Act sid enters x y → P x → P y) (hxy : Slice.Acts sid enters x y)
    (hx : P x) : P y := by
  induction hxy with
  | refl => exact hx
  | tail _ hact ih => exact h _ _ hact ih

/-! ## What the acts leave -/

theorem Slice.freeEntry_frame (x : Slice) (sid : SliceId) (l : LineAddr) :
    x.freeEntry sid l = { x with dir := (x.freeEntry sid l).dir } := by
  unfold Slice.freeEntry; split <;> rfl

theorem Slice.rewriteEntry_frame (x : Slice) (l : LineAddr) (e : Entry) :
    x.rewriteEntry l e = { x with dir := (x.rewriteEntry l e).dir } := by
  unfold Slice.rewriteEntry; split <;> rfl

theorem Slice.grantEntry_frame (x : Slice) (l : LineAddr) (e : Entry) :
    x.grantEntry l e = { x with dir := (x.grantEntry l e).dir } := by
  unfold Slice.grantEntry; split <;> rfl

/-- The record that starts, with the victim it may have chosen, is all that a place changes beside the directory. -/
theorem Slice.Placed.frame (h : Slice.Placed sid i x y) :
    ∃ v : Option LineAddr, y = { x with dir := y.dir, records := x.records.set i { x.records[i] with victim := v } }
      ∧ (v = x.records[i].victim ∨ ∃ l, v = some l ∧ x.held l = false ∧ sliceOf l = sid) := by
  have hself : x.records.set i { x.records[i] with victim := x.records[i].victim } = x.records := Vector.set_getElem_self i.isLt
  cases h with
  | plain => exact ⟨x.records[i].victim, by rw [hself], .inl rfl⟩
  | reserve w => exact ⟨x.records[i].victim, by rw [hself]; rfl, .inl rfl⟩
  | victim w t e _ _ hfree => exact ⟨_, rfl, .inr ⟨_, rfl, hfree, sliceOf_lineOf sid _ t⟩⟩

/-! ## Lines held -/

/-- A record that keeps holds nothing new. -/
theorem Record.keeps.holds_of {r r' : Record} (h : r.keeps r') {l : LineAddr} (hl : r'.holds l) : r.holds l := by
  obtain ⟨hphase, hline, hvictim, -⟩ := h
  refine ⟨fun hf => hl.1 (hphase.2 hf), hl.2.imp (fun e => hline ▸ e) fun e => ?_⟩
  obtain hv | hv := hvictim
  · exact hv ▸ e
  · rw [hv] at e; cases e

theorem Slice.soleHolders_of_keeps (hx : x.soleHolders) (h : ∀ j : RecIdx, x.records[j].keeps y.records[j]) : y.soleHolders :=
  fun l j k hj hk => hx l j k ((h j).holds_of hj) ((h k).holds_of hk)

theorem Slice.soleHolders_congr (hx : x.soleHolders) (h : y.records = x.records) : y.soleHolders :=
  Slice.soleHolders_of_keeps hx fun _ => h ▸ Record.keeps_refl _

/-- A new record at i leaves the holders sole if no other record holds a line of it. -/
theorem Slice.soleHolders_set {r : Record} (hx : x.soleHolders) (hy : y.records = x.records.set i r)
    (h : ∀ l (j : RecIdx), j ≠ i → r.holds l → ¬x.records[j].holds l) : y.soleHolders := by
  intro l j k hj hk
  rw [hy, Slice.getElem_set_records] at hj hk
  split at hj <;> split at hk
  · next hj' hk' => exact hj'.trans hk'.symm
  · next hk' => exact absurd hk (h l k hk' hj)
  · next hj' _ => exact absurd hj (h l j hj' hk)
  · exact hx l j k hj hk

theorem Slice.not_holds_of_held (h : x.held l = false) (j : RecIdx) : ¬x.records[j].holds l := (Slice.held_eq_false x l).1 h j

/-- A record that has started holds its line alone, and its victim line, if it has chosen one. -/
theorem Slice.Placed.soleHolders {r : Record} (h : Slice.Placed sid i { x with records := x.records.set i r } y) (hr : r.begins)
    (hx : x.soleHolders) (hline : ∀ j : RecIdx, j ≠ i → ¬x.records[j].holds r.line) : y.soleHolders := by
  obtain ⟨v, hy, hv⟩ := h.frame
  have hrecords : y.records = x.records.set i { r with victim := v } := by rw [hy]; simp
  refine Slice.soleHolders_set hx hrecords fun l j hj hl => ?_
  obtain ⟨-, hl | hl⟩ := hl
  · exact hl ▸ hline j hj
  · obtain rfl | ⟨l', rfl, hfree, -⟩ := hv
    · simp only [Fin.getElem_fin, Vector.getElem_set_self] at hl
      rw [hr.2.1] at hl; cases hl
    · cases hl
      have hj' := Slice.not_holds_of_held hfree j
      rwa [Slice.getElem_set_records, if_neg hj] at hj'

/-- No act lets two records hold one line (R29). -/
theorem Slice.Act.soleHolders (h : Slice.Act sid enters x y) (hx : x.soleHolders) : y.soleHolders := by
  cases h with
  | paths _ _ hrec => exact Slice.soleHolders_congr hx hrec
  | records v hv => exact Slice.soleHolders_of_keeps hx hv
  | engine _ _ hrec => exact Slice.soleHolders_congr hx hrec
  | order => exact hx
  | submitted => exact hx
  | queue => exact hx
  | unqueue => exact hx
  | free l => exact Slice.soleHolders_congr hx (x.freeEntry_records sid l)
  | rewrite l e => exact Slice.soleHolders_congr hx (x.rewriteEntry_records l e)
  | grant i e => exact Slice.soleHolders_congr hx (x.grantEntry_records _ e)
  | ended i => exact Slice.soleHolders_set (i := i) (r := Record.free) hx rfl fun _ _ _ hl => absurd rfl hl.1
  | start b i r _ hb hi hfree hr hline hplaced =>
    have hsole : b.soleHolders := Slice.soleHolders_congr hx hb.records
    refine hplaced.soleHolders hr hsole fun j _ => ?_
    rw [hb.records]
    exact Slice.not_holds_of_held hfree j
  | hand i r _ hi hline hr hplaced =>
    have hplaced : Slice.Placed sid i { x.dropReservation sid i with records := (x.dropReservation sid i).records.set i r } y := by
      rw [Slice.dropReservation_records]; exact hplaced
    refine hplaced.soleHolders hr (Slice.soleHolders_congr hx (x.dropReservation_records sid i)) fun j hj hl => ?_
    rw [Slice.dropReservation_records] at hl
    exact hj (hx r.line j i hl ⟨hi, .inl hline.symm⟩)

/-! ## The bounds -/

/-- No act passes the places of the wait queue or the sets of the slice (R31, R117). -/
theorem Slice.Act.bounded (h : Slice.Act sid enters x y) (hx : x.bounded) : y.bounded := by
  obtain ⟨hlen, hpos⟩ := hx
  have placed {i : RecIdx} {z : Slice} (hplaced : Slice.Placed sid i z y) (hz : z.bounded) : y.bounded := by
    obtain ⟨v, hy, -⟩ := hplaced.frame
    rw [hy]
    exact hz
  cases h with
  | paths _ _ _ hqueue _ heng => exact ⟨hqueue ▸ hlen, heng ▸ hpos⟩
  | records => exact ⟨hlen, hpos⟩
  | engine _ _ _ hqueue _ hpos' => exact ⟨hqueue ▸ hlen, hpos' hpos⟩
  | order => exact ⟨hlen, hpos⟩
  | submitted => exact ⟨hlen, hpos⟩
  | queue w hw => exact ⟨by rw [List.length_append]; exact hw, hpos⟩
  | unqueue q hq => exact ⟨hq.length_le.trans hlen, hpos⟩
  | free l => rw [Slice.freeEntry_frame]; exact ⟨hlen, hpos⟩
  | rewrite l e => rw [Slice.rewriteEntry_frame]; exact ⟨hlen, hpos⟩
  | grant i e => rw [Slice.grantEntry_frame]; exact ⟨hlen, hpos⟩
  | ended i => rw [Slice.replaceRecord, Slice.dropReservation_eq]; exact ⟨hlen, hpos⟩
  | start b i r _ hb _ _ _ _ hplaced => exact placed hplaced ⟨hb.waitQueue.length_le.trans hlen, hb.position ▸ hpos⟩
  | hand i r _ _ _ _ hplaced =>
    refine placed hplaced ?_
    rw [Slice.replaceRecord, Slice.dropReservation_eq]
    exact ⟨hlen, hpos⟩

/-! ## FREE records have no operation -/

theorem Slice.noOps_of_subset {z : Slice} (h : z.submission ⊆ x.submission) {j : RecIdx} (hx : x.noOps j = true) : z.noOps j = true := by
  rw [Slice.noOps, List.all_eq_true] at hx ⊢
  exact fun o ho => hx o (h ho)

/-- Fewer operations and no more FREE records. -/
theorem Slice.freeRecordsIdle_of (hx : x.freeRecordsIdle) (hrec : ∀ j : RecIdx, y.records[j].phase = .free → x.records[j].phase = .free)
    (hsub : y.submission ⊆ x.submission) : y.freeRecordsIdle := fun j hj => Slice.noOps_of_subset hsub (hx j (hrec j hj))

theorem Slice.Placed.freeRecordsIdle {r : Record} (h : Slice.Placed sid i { x with records := x.records.set i r } y)
    (hr : r.phase ≠ .free) (hx : x.freeRecordsIdle) : y.freeRecordsIdle := by
  obtain ⟨v, hy, -⟩ := h.frame
  refine Slice.freeRecordsIdle_of hx (fun j hj => ?_) (by rw [hy]; exact fun _ h => h)
  rw [hy] at hj
  simp only [Slice.getElem_set_records] at hj
  split at hj
  · exact absurd hj (by simpa using hr)
  · exact hj

/-- No act leaves an operation of a FREE record in the submission list (R173). -/
theorem Slice.Act.freeRecordsIdle (h : Slice.Act sid enters x y) (hx : x.freeRecordsIdle) : y.freeRecordsIdle := by
  cases h with
  | paths _ _ hrec _ hsub => exact Slice.freeRecordsIdle_of hx (fun j => by rw [hrec]; exact id) (by rw [hsub]; exact fun _ h => h)
  | records v hv => exact Slice.freeRecordsIdle_of hx (fun j => (hv j).1.1) fun _ h => h
  | engine _ _ hrec _ hsub => exact Slice.freeRecordsIdle_of hx (fun j => by rw [hrec]; exact id) (by rw [hsub]; exact fun _ h => h)
  | order op owner ho =>
    intro j hj
    have howner : owner ≠ .record j := fun h => ho j h hj
    simpa [Slice.noOps, howner] using hx j hj
  | submitted os hos => exact Slice.freeRecordsIdle_of hx (fun _ => id) hos
  | queue => exact hx
  | unqueue => exact hx
  | free l => rw [Slice.freeEntry_frame]; exact hx
  | rewrite l e => rw [Slice.rewriteEntry_frame]; exact hx
  | grant i e => rw [Slice.grantEntry_frame]; exact hx
  | ended i hi hops =>
    rw [Slice.replaceRecord, Slice.dropReservation_eq]
    intro j hj
    simp only [Slice.getElem_set_records] at hj
    split at hj
    · next hji => exact hji ▸ hops
    · exact hx j hj
  | start b i r _ hb _ _ hr _ hplaced =>
    exact hplaced.freeRecordsIdle hr.1
      (Slice.freeRecordsIdle_of hx (fun j => by rw [hb.records]; exact id) (by rw [hb.submission]; exact fun _ h => h))
  | hand i r _ _ _ hr hplaced =>
    rw [Slice.replaceRecord, Slice.dropReservation_eq] at hplaced
    exact hplaced.freeRecordsIdle hr.1 hx

/-! ## Lines at home -/

/-- A record's lines belong to the slice (R3). -/
def Record.atHome (sid : SliceId) (r : Record) : Prop :=
  r.phase ≠ .free → sliceOf r.line = sid ∧ ∀ v, r.victim = some v → sliceOf v = sid

theorem Slice.linesAtHome_iff (sid : SliceId) (x : Slice) :
    x.linesAtHome sid ↔ (∀ j : RecIdx, x.records[j].atHome sid) ∧ (∀ w ∈ x.waitQueue, sliceOf w.line = sid)
      ∧ ∀ l ∈ x.engine.pendingLines, sliceOf l = sid := Iff.rfl

theorem Record.keeps.atHome {r r' : Record} (h : r.keeps r') (hr : r.atHome sid) : r'.atHome sid := by
  obtain ⟨hphase, hline, hvictim, -⟩ := h
  intro hf
  obtain ⟨hl, hv⟩ := hr fun h => hf (hphase.2 h)
  refine ⟨hline ▸ hl, fun v hv' => ?_⟩
  obtain h | h := hvictim
  · exact hv v (h ▸ hv')
  · rw [h] at hv'; cases hv'

theorem Slice.Placed.linesAtHome {r : Record} (h : Slice.Placed sid i { x with records := x.records.set i r } y) (hr : r.begins)
    (hx : x.linesAtHome sid) (hline : sliceOf r.line = sid) : y.linesAtHome sid := by
  obtain ⟨v, hy, hv⟩ := h.frame
  obtain ⟨hrec, hqueue, hpending⟩ := (Slice.linesAtHome_iff sid x).1 hx
  rw [hy]
  refine ⟨fun j => ?_, hqueue, hpending⟩
  simp only [Slice.getElem_set_records]
  split
  · intro _
    refine ⟨by simpa using hline, fun l hl => ?_⟩
    obtain rfl | ⟨l', rfl, -, hhome⟩ := hv
    · simp [hr.2.1] at hl
    · cases hl; exact hhome
  · exact hrec j

/-- Every act keeps the lines at the slice that the address function gives them, if those that enter belong there (R3). -/
theorem Slice.Act.linesAtHome (henters : ∀ l, enters l → sliceOf l = sid) (h : Slice.Act sid enters x y) (hx : x.linesAtHome sid) :
    y.linesAtHome sid := by
  obtain ⟨hrec, hqueue, hpending⟩ := (Slice.linesAtHome_iff sid x).1 hx
  cases h with
  | paths _ _ hrec' hqueue' _ heng => exact ⟨hrec' ▸ hrec, hqueue' ▸ hqueue, heng ▸ hpending⟩
  | records v hv => exact ⟨fun j => (hv j).atHome (hrec j), hqueue, hpending⟩
  | engine _ _ hrec' hqueue' _ _ hpending' => exact ⟨hrec' ▸ hrec, hqueue' ▸ hqueue, fun l hl => (hpending' l hl).elim (hpending l) id⟩
  | order => exact hx
  | submitted => exact hx
  | queue w _ hw => exact ⟨hrec, fun v hv => (List.mem_append.1 hv).elim (hqueue v) fun h => List.mem_singleton.1 h ▸ henters _ hw, hpending⟩
  | unqueue q hq => exact ⟨hrec, fun v hv => hqueue v (hq.subset hv), hpending⟩
  | free l => rw [Slice.freeEntry_frame]; exact hx
  | rewrite l e => rw [Slice.rewriteEntry_frame]; exact hx
  | grant i e => rw [Slice.grantEntry_frame]; exact hx
  | ended i =>
    rw [Slice.replaceRecord, Slice.dropReservation_eq]
    refine ⟨fun j => ?_, hqueue, hpending⟩
    simp only [Slice.getElem_set_records]
    split
    · exact fun hf => absurd rfl hf
    · exact hrec j
  | start b i r _ hb _ _ hr hline hplaced =>
    refine hplaced.linesAtHome hr ⟨hb.records ▸ hrec, fun v hv => hqueue v (hb.waitQueue.subset hv),
      fun l hl => hpending l (hb.pendingLines hl)⟩ ?_
    obtain h | ⟨w, hw, h⟩ | h := hline
    · exact henters _ h
    · exact h ▸ hqueue w hw
    · exact hpending _ h
  | hand i r _ hi hline hr hplaced =>
    rw [Slice.replaceRecord, Slice.dropReservation_eq] at hplaced
    exact hplaced.linesAtHome hr ⟨hrec, hqueue, hpending⟩ (hline ▸ (hrec i hi).1)

end

end Sys2Proof.Machine

/-!
The directory of a slice, act by act: while its lines are at home (R3) and held by one record each (R29), every act keeps the directory as
the manual says (R6 to R8, R13, R112).
-/

namespace Sys2Proof.Machine

/-! ## Reading the directory -/

/-- A line is its slice, its set and its tag (R3, R4). -/
theorem line_ext {l m : LineAddr} (hslice : sliceOf l = sliceOf m) (hset : setOf l = setOf m) (htag : tagOf l = tagOf m) : l = m := by
  rw [← lineOf_sliceOf_setOf_tagOf l, ← lineOf_sliceOf_setOf_tagOf m, hslice, hset, htag]

theorem DirSet.findEntry_some {d : DirSet} {t : BitVec 15} {w : WayIdx} {e : Entry} (h : d.findEntry t = some (w, e)) :
    d.ways[w] = .occupied t e := by
  obtain ⟨v, -, hv⟩ := List.exists_of_findSome?_eq_some h
  split at hv
  · next t' e' hway =>
    split at hv
    · next ht => cases hv; exact ht ▸ hway
    · cases hv
  · cases hv

theorem DirSet.findEntry_none {d : DirSet} {t : BitVec 15} (h : d.findEntry t = none) (w : WayIdx) (e : Entry) :
    d.ways[w] ≠ .occupied t e := by
  intro hway
  have hw := List.findSome?_eq_none_iff.1 h w (List.mem_finRange w)
  rw [hway] at hw
  simp at hw

theorem DirSet.findReserved_some {d : DirSet} {t : BitVec 15} {w : WayIdx} {h : Handle} (hf : d.findReserved t = some (w, h)) :
    d.ways[w] = .reserved t h := by
  obtain ⟨v, -, hv⟩ := List.exists_of_findSome?_eq_some hf
  split at hv
  · next t' h' hway =>
    split at hv
    · next ht => cases hv; exact ht ▸ hway
    · cases hv
  · cases hv

theorem DirSet.findReserved_none {d : DirSet} {t : BitVec 15} (hf : d.findReserved t = none) (w : WayIdx) (h : Handle) :
    d.ways[w] ≠ .reserved t h := by
  intro hway
  have hw := List.findSome?_eq_none_iff.1 hf w (List.mem_finRange w)
  rw [hway] at hw
  simp at hw

section
variable {sid : SliceId} {enters : LineAddr → Prop} {i : RecIdx} {x y : Slice} {p : Nat} {w : WayIdx} {l : LineAddr}

theorem Slice.entryOf_some {e : Entry} (h : x.entryOf l = some (w, e)) : (x.getSet (setOf l)).ways[w] = .occupied (tagOf l) e :=
  DirSet.findEntry_some h

/-- A line has an entry where a way of its set is OCCUPIED with its tag (R9). -/
theorem Slice.entryOf_ne_none : x.entryOf l ≠ none ↔ ∃ (w : WayIdx) (e : Entry), (x.getSet (setOf l)).ways[w] = .occupied (tagOf l) e := by
  constructor
  · intro h
    obtain ⟨⟨w, e⟩, hw⟩ := Option.ne_none_iff_exists'.1 h
    exact ⟨w, e, Slice.entryOf_some hw⟩
  · rintro ⟨w, e, hw⟩ h
    exact DirSet.findEntry_none h w e hw

theorem Slice.reservationOf_some {h : Handle} (hf : x.reservationOf l = some (w, h)) :
    (x.getSet (setOf l)).ways[w] = .reserved (tagOf l) h := DirSet.findReserved_some hf

/-- The sets after one has been replaced. -/
theorem Slice.getSet_putSet (hwf : Sparse.wf DirSet.empty x.dir = true) (p q : Nat) (d : DirSet) :
    (x.putSet p d).getSet q = if q = p then d else x.getSet q := Sparse.get_put _ _ _ _ _ hwf

/-- The ways after one has been replaced. -/
theorem getElem_set_ways (ways : Vector Way 8) (w v : WayIdx) (a : Way) : (ways.set w a)[v] = if v = w then a else ways[v] := by
  by_cases h : v = w
  · subst h; simp
  · rw [if_neg h]
    exact Vector.getElem_set_ne w.isLt v.isLt fun e => h (Fin.ext e.symm)

theorem Way.carries_reserved {t t' : BitVec 15} {h : Handle} : (Way.reserved t h).carries t' ↔ t' = t := by
  simp [Way.carries, eq_comm]

theorem Way.carries_occupied {t t' : BitVec 15} {e : Entry} : (Way.occupied t e).carries t' ↔ t' = t := by
  simp [Way.carries, eq_comm]

theorem Way.not_carries_empty (t : BitVec 15) : ¬Way.empty.carries t := by simp [Way.carries]

/-! ## The directory and the records -/

/-- No RESERVED way carries the handle of record i. -/
def Slice.unreserved (x : Slice) (sid : SliceId) (i : RecIdx) : Prop :=
  ∀ (p : Nat) (w : WayIdx) (t : BitVec 15), (x.getSet p).ways[w] ≠ .reserved t (handleOf sid i)

theorem handleOf_handleSlice_handleIdx (h : Handle) : handleOf (handleSlice h) (handleIdx h) = h := by
  apply Fin.ext
  simp only [handleOf, handleSlice, handleIdx]
  omega

theorem handleSlice_handleOf (sid : SliceId) (i : RecIdx) : handleSlice (handleOf sid i) = sid := by
  apply Fin.ext
  simp only [handleOf, handleSlice]
  omega

theorem handleIdx_handleOf (sid : SliceId) (i : RecIdx) : handleIdx (handleOf sid i) = i := by
  apply Fin.ext
  simp only [handleOf, handleIdx]
  omega

/-- A FREE record has no reservation (R8). -/
theorem Slice.directoryConsistent.unreserved (hx : x.directoryConsistent sid) (hi : x.records[i].phase = .free) : x.unreserved sid i := by
  obtain ⟨-, -, -, hreserved, -, -⟩ := hx
  intro p w t hway
  obtain ⟨-, hphase, -⟩ := hreserved p w t _ hway
  simp only [handleIdx_handleOf] at hphase
  exact hphase hi

/-- The directory stays consistent where the records keep what they hold. -/
theorem Slice.directoryConsistent.of_keeps (hx : x.directoryConsistent sid) (hdir : y.dir = x.dir)
    (hrec : ∀ j : RecIdx, x.records[j].keeps y.records[j]) : y.directoryConsistent sid := by
  obtain ⟨hwf, hone, hrecency, hreserved, hvictims, hsharers, hplans⟩ := hx
  have hset (q : Nat) : y.getSet q = x.getSet q := by simp only [Slice.getSet, hdir]
  have hentry (l : LineAddr) : y.entryOf l = x.entryOf l := by simp only [Slice.entryOf, hset]
  refine ⟨hdir ▸ hwf, fun q => by simpa only [hset] using hone q, fun q => hset q ▸ hrecency q, ?_, ?_, ?_, ?_⟩
  · intro q w t h hway
    rw [hset] at hway
    obtain ⟨hslice, hphase, hline⟩ := hreserved q w t h hway
    obtain ⟨hkphase, hkline, -⟩ := hrec (handleIdx h)
    exact ⟨hslice, fun hf => hphase (hkphase.1 hf), hkline ▸ hline⟩
  · intro j v hphase hv
    obtain ⟨hkphase, hkline, hkvictim, -⟩ := hrec j
    obtain hk | hk := hkvictim
    · rw [hkline, hentry, hset]
      exact hvictims j v (fun hf => hphase (hkphase.2 hf)) (hk ▸ hv)
    · rw [hk] at hv; cases hv
  · intro q w t a hway
    exact hsharers q w t a (hset q ▸ hway)
  · intro j a ha
    obtain ⟨-, -, -, hkplan⟩ := hrec j
    exact (hkplan a ha).elim id (hplans j a)

theorem Slice.directoryConsistent.congr (hx : x.directoryConsistent sid) (hdir : y.dir = x.dir) (hrec : y.records = x.records) :
    y.directoryConsistent sid := hx.of_keeps hdir fun _ => hrec ▸ Record.keeps_refl _

/-- The directory stays consistent where a record without a reservation is replaced by one without a victim and without a plan. -/
theorem Slice.directoryConsistent.set_record {r : Record} (hx : x.directoryConsistent sid) (hi : x.unreserved sid i)
    (hvictim : r.victim = none) (hplan : r.plan = .none) :
    ({ x with records := x.records.set i r } : Slice).directoryConsistent sid := by
  obtain ⟨hwf, hone, hrecency, hreserved, hvictims, hsharers, hplans⟩ := hx
  refine ⟨hwf, hone, hrecency, ?_, ?_, hsharers, ?_⟩
  · intro q w t h hway
    obtain ⟨hslice, hrest⟩ := hreserved q w t h hway
    have hne : handleIdx h ≠ i := fun hidx => hi q w t (by rw [← hidx, ← hslice, handleOf_handleSlice_handleIdx]; exact hway)
    simp only [Slice.getElem_set_records, if_neg hne]
    exact ⟨hslice, hrest⟩
  · intro j v
    simp only [Slice.getElem_set_records]
    split
    · intro _ hv; rw [hvictim] at hv; cases hv
    · exact hvictims j v
  · intro j a
    simp only [Slice.getElem_set_records]
    split
    · intro hp; rw [hplan] at hp; cases hp
    · exact hplans j a

/-! ## One way changes -/

/-- The directory stays consistent where one way changes: no other way carries the new way's tag, the recency order follows, a reservation is
owned, the way agrees with the victims of its set, and no sharer set is empty. -/
theorem Slice.directoryConsistent.set_way {a : Way} {recency : List WayIdx} (hx : x.directoryConsistent sid)
    (hone : ∀ t, a.carries t → ∀ v, v ≠ w → ¬((x.getSet p).ways[v]).carries t)
    (hrecency : DirSet.recencyExact ⟨(x.getSet p).ways.set w a, recency⟩)
    (hreserved : ∀ t h, a = .reserved t h → handleSlice h = sid ∧ x.records[handleIdx h].phase ≠ .free
      ∧ setOf x.records[handleIdx h].line = p ∧ tagOf x.records[handleIdx h].line = t)
    (hline : ∀ (j : RecIdx) (v : LineAddr), x.records[j].phase ≠ .free → x.records[j].victim = some v → setOf v = p →
      a.carries (tagOf x.records[j].line) → ∀ u e, u ≠ w → (x.getSet p).ways[u] ≠ .occupied (tagOf v) e)
    (hvictim : ∀ (j : RecIdx) (v : LineAddr), x.records[j].phase ≠ .free → x.records[j].victim = some v → setOf v = p →
      (∃ e, a = .occupied (tagOf v) e) → ∀ u, u ≠ w → ¬((x.getSet p).ways[u]).carries (tagOf x.records[j].line))
    (hshared : ∀ t b, a = .occupied t (.shared b) → b ≠ 0#8) :
    (x.putSet p ⟨(x.getSet p).ways.set w a, recency⟩).directoryConsistent sid := by
  obtain ⟨hwf, honeway, hexact, howned, hvictims, hsharers, hplans⟩ := hx
  have hset := Slice.getSet_putSet hwf p (d := ⟨(x.getSet p).ways.set w a, recency⟩)
  refine ⟨Sparse.wf_put _ _ _ _ hwf, ?_, ?_, ?_, ?_, ?_, hplans⟩
  · intro q u v t hu hv
    rw [hset] at hu hv
    split at hu
    · next hq =>
      subst hq
      simp only [if_true, getElem_set_ways] at hu hv
      split at hu <;> split at hv
      · next h h' => exact h.trans h'.symm
      · next h h' => exact absurd hv (hone t hu v h')
      · next h h' => exact absurd hu (hone t hv u h)
      · exact honeway q u v t hu hv
    · next hq => rw [if_neg hq] at hv; exact honeway q u v t hu hv
  · intro q
    rw [hset]
    split
    · exact hrecency
    · exact hexact q
  · intro q u t h hway
    rw [hset] at hway
    split at hway
    · next hq =>
      subst hq
      simp only [getElem_set_ways] at hway
      split at hway
      · exact hreserved t h hway
      · exact howned q u t h hway
    · exact howned q u t h hway
  · intro j v hphase hv
    obtain ⟨hsetv, htag, hapart⟩ := hvictims j v hphase hv
    refine ⟨hsetv, htag, ?_⟩
    rw [Slice.entryOf_ne_none]
    rintro ⟨u, e, hu⟩ u' hu'
    rw [hset] at hu hu'
    split at hu
    · next hq =>
      simp only [hq, if_true, getElem_set_ways] at hu hu'
      split at hu <;> split at hu'
      · rw [hu] at hu'
        exact htag (Way.carries_occupied.1 hu').symm
      · next h => exact hvictim j v hphase hv hq ⟨e, hu⟩ u' h hu'
      · next h _ => exact hline j v hphase hv hq hu' u e h hu
      · exact hapart (Slice.entryOf_ne_none.2 ⟨u, e, hq ▸ hu⟩) u' (by rw [hq]; exact hu')
    · next hq =>
      rw [if_neg hq] at hu'
      exact hapart (Slice.entryOf_ne_none.2 ⟨u, e, hu⟩) u' hu'
  · intro q u t b hway
    rw [hset] at hway
    split at hway
    · next hq =>
      subst hq
      simp only [getElem_set_ways] at hway
      split at hway
      · exact hshared t b hway
      · exact hsharers q u t b hway
    · exact hsharers q u t b hway

/-! ## The recency order -/

section
variable {d : DirSet} {a : Way}

/-- The recency order without a way that is no longer OCCUPIED (R15). -/
theorem DirSet.recencyExact.drop (h : d.recencyExact) (ha : ∀ t e, a ≠ .occupied t e) :
    DirSet.recencyExact ⟨d.ways.set w a, d.recency.erase w⟩ := by
  obtain ⟨hnodup, hmem⟩ := h
  refine ⟨hnodup.erase w, fun v => ?_⟩
  rw [hnodup.mem_erase_iff]
  simp only [getElem_set_ways]
  by_cases hv : v = w
  · simp [hv, ha]
  · simp [hv, hmem]

/-- The recency order where a way that is OCCUPIED, or is not, stays so. -/
theorem DirSet.recencyExact.keep (h : d.recencyExact) (ha : (∃ t e, a = .occupied t e) ↔ ∃ t e, d.ways[w] = .occupied t e) :
    DirSet.recencyExact ⟨d.ways.set w a, d.recency⟩ := by
  obtain ⟨hnodup, hmem⟩ := h
  refine ⟨hnodup, fun v => ?_⟩
  simp only [getElem_set_ways]
  by_cases hv : v = w
  · rw [if_pos hv, hv, hmem, ha]
  · rw [if_neg hv, hmem]

/-- The recency order with a granted way at its front (R14). -/
theorem DirSet.recencyExact.front {t : BitVec 15} {e : Entry} (h : d.recencyExact) :
    DirSet.recencyExact ⟨d.ways.set w (.occupied t e), w :: d.recency.erase w⟩ := by
  obtain ⟨hnodup, hmem⟩ := h
  refine ⟨List.nodup_cons.2 ⟨hnodup.not_mem_erase, hnodup.erase w⟩, fun v => ?_⟩
  rw [List.mem_cons, hnodup.mem_erase_iff]
  simp only [getElem_set_ways]
  by_cases hv : v = w
  · simp [hv]
  · simp [hv, hmem]

end

/-! ## The directory operations -/

/-- Two records of a slice with one request line's set and tag are one (R3, R29). -/
theorem Slice.holder_unique (hhome : x.linesAtHome sid) (hsole : x.soleHolders) {i j : RecIdx} (hi : x.records[i].phase ≠ .free)
    (hj : x.records[j].phase ≠ .free) (hset : setOf x.records[i].line = setOf x.records[j].line)
    (htag : tagOf x.records[i].line = tagOf x.records[j].line) : i = j := by
  have hline : x.records[i].line = x.records[j].line :=
    line_ext ((hhome.1 i hi).1.trans (hhome.1 j hj).1.symm) hset htag
  exact hsole _ i j ⟨hi, .inl rfl⟩ ⟨hj, .inl hline.symm⟩

/-- A way that becomes EMPTY breaks nothing. -/
theorem Slice.directoryConsistent.set_empty {recency : List WayIdx} (hx : x.directoryConsistent sid)
    (hrecency : DirSet.recencyExact ⟨(x.getSet p).ways.set w .empty, recency⟩) :
    (x.putSet p ⟨(x.getSet p).ways.set w .empty, recency⟩).directoryConsistent sid :=
  hx.set_way (fun t ht => absurd ht (Way.not_carries_empty t)) hrecency (fun _ _ h => nomatch h)
    (fun _ _ _ _ _ h => absurd h (Way.not_carries_empty _)) (fun _ _ _ _ _ ⟨_, h⟩ => nomatch h) (fun _ _ h => nomatch h)

/-- A way of record j's request line that becomes RESERVED for it: nothing else carries the line's tag, and the entry of the record's victim, if
it has one, is the way itself (R8, R110, R114). -/
theorem Slice.directoryConsistent.set_reserved {j : RecIdx} {recency : List WayIdx} (hx : x.directoryConsistent sid)
    (hhome : x.linesAtHome sid) (hsole : x.soleHolders) (hj : x.records[j].phase ≠ .free) (hp : setOf x.records[j].line = p)
    (hone : ∀ v, v ≠ w → ¬((x.getSet p).ways[v]).carries (tagOf x.records[j].line))
    (hrecency : DirSet.recencyExact ⟨(x.getSet p).ways.set w (.reserved (tagOf x.records[j].line) (handleOf sid j)), recency⟩)
    (hvictim : ∀ v, x.records[j].victim = some v → ∀ u e, u ≠ w → (x.getSet p).ways[u] ≠ .occupied (tagOf v) e) :
    (x.putSet p ⟨(x.getSet p).ways.set w (.reserved (tagOf x.records[j].line) (handleOf sid j)), recency⟩).directoryConsistent sid := by
  refine hx.set_way (fun t ht => Way.carries_reserved.1 ht ▸ hone) hrecency ?_ ?_ (fun _ _ _ _ _ ⟨_, h⟩ => nomatch h)
    (fun _ _ h => nomatch h)
  · rintro t h heq
    cases heq
    simp only [handleIdx_handleOf]
    exact ⟨handleSlice_handleOf sid j, hj, hp, trivial⟩
  · intro k v hk hv hset hcarries
    obtain ⟨-, -, -, -, hvictims, -⟩ := hx
    have hkset : setOf x.records[k].line = p := (hvictims k v hk hv).1.symm.trans hset
    have hkj : k = j := Slice.holder_unique hhome hsole hk hj (hkset.trans hp.symm) (Way.carries_reserved.1 hcarries)
    exact hvictim v (hkj ▸ hv)

/-- The end of an entry keeps the directory consistent: its way becomes EMPTY, or RESERVED for the record that holds the line (R15, R19). -/
theorem Slice.directoryConsistent.freeEntry (hx : x.directoryConsistent sid) (hhome : x.linesAtHome sid) (hsole : x.soleHolders)
    (l : LineAddr) : (x.freeEntry sid l).directoryConsistent sid := by
  obtain ⟨-, hone, hexact, -, hvictims, -⟩ := id hx
  unfold Slice.freeEntry
  split
  · exact hx
  · next w e hentry =>
    have hway := Slice.entryOf_some hentry
    have hothers (v : WayIdx) (hv : v ≠ w) : ¬((x.getSet (setOf l)).ways[v]).carries (tagOf l) := fun h =>
      hv (hone _ v w _ h (hway ▸ Way.carries_occupied.2 rfl))
    have hempty : (x.putSet (setOf l) (((x.getSet (setOf l)).setWay w .empty).dropRecency w)).directoryConsistent sid :=
      hx.set_empty ((hexact _).drop fun _ _ h => nomatch h)
    simp only [Slice.freedWay]
    split
    · exact hempty
    · next j hholder =>
      obtain ⟨hphase, hholds⟩ := Slice.holder_some hholder
      split
      · next hvictim =>
        obtain ⟨hset, htag, hapart⟩ := hvictims j l hphase hvictim
        refine hx.set_reserved hhome hsole hphase hset.symm (fun v _ => hapart (hentry ▸ Option.some_ne_none _) v)
          ((hexact _).drop fun _ _ h => nomatch h) fun v hv u e' hu hocc => ?_
        have hvl : v = l := Option.some.inj (hv.symm.trans hvictim)
        exact hothers u hu (by rw [hocc, hvl]; exact Way.carries_occupied.2 rfl)
      · next hvictim =>
        split
        · have hline : x.records[j].line = l := hholds.resolve_right hvictim
          rw [← hline] at hentry hway hothers ⊢
          refine hx.set_reserved hhome hsole hphase rfl hothers ((hexact _).drop fun _ _ h => nomatch h) fun v hv u e' _ hocc => ?_
          obtain ⟨hset, -, hapart⟩ := hvictims j v hphase hv
          exact hapart (Slice.entryOf_ne_none.2 ⟨u, e', hset ▸ hocc⟩) w (by rw [hset, hway]; exact Way.carries_occupied.2 rfl)
        · exact hempty

/-- A rewritten entry keeps the directory consistent. -/
theorem Slice.directoryConsistent.rewriteEntry {e : Entry} (hx : x.directoryConsistent sid) (l : LineAddr)
    (he : ∀ a, e = .shared a → a ≠ 0#8) : (x.rewriteEntry l e).directoryConsistent sid := by
  obtain ⟨-, hone, hexact, -, hvictims, -⟩ := id hx
  unfold Slice.rewriteEntry
  split
  · exact hx
  · next w e' hentry =>
    have hway := Slice.entryOf_some hentry
    have hcarries : ((x.getSet (setOf l)).ways[w]).carries (tagOf l) := hway ▸ Way.carries_occupied.2 rfl
    refine hx.set_way ?_ ((hexact _).keep ⟨fun _ => ⟨_, _, hway⟩, fun _ => ⟨_, _, rfl⟩⟩) (fun _ _ h => nomatch h) ?_ ?_
      (fun _ b h => he b (Way.occupied.inj h).2)
    · exact fun t ht v hv h => hv (hone _ v w _ (Way.carries_occupied.1 ht ▸ h) hcarries)
    · intro j v hphase hv hset ht u e'' _ hocc
      obtain ⟨-, -, hapart⟩ := hvictims j v hphase hv
      refine hapart (Slice.entryOf_ne_none.2 ⟨u, e'', hset ▸ hocc⟩) w ?_
      rw [hset, Way.carries_occupied.1 ht]
      exact hcarries
    · rintro j v hphase hv hset ⟨e'', hocc⟩ u _
      obtain ⟨-, -, hapart⟩ := hvictims j v hphase hv
      rw [← hset]
      refine hapart (Slice.entryOf_ne_none.2 ⟨w, e', ?_⟩) u
      rw [hset, hway, (Way.occupied.inj hocc).1]

/-- A grant's entry keeps the directory consistent: the way was the line's entry or its reservation (R14, R16, R17). -/
theorem Slice.directoryConsistent.grantEntry {e : Entry} (hx : x.directoryConsistent sid) (hhome : x.linesAtHome sid)
    (hsole : x.soleHolders) (hi : x.records[i].phase ≠ .free) (he : ∀ a, e = .shared a → a ≠ 0#8) :
    (x.grantEntry x.records[i].line e).directoryConsistent sid := by
  obtain ⟨-, hone, hexact, -, hvictims, -⟩ := id hx
  unfold Slice.grantEntry
  split
  · exact hx
  · next w hw =>
    have hcarries : ((x.getSet (setOf x.records[i].line)).ways[w]).carries (tagOf x.records[i].line) := by
      cases hentry : x.entryOf x.records[i].line with
      | some we =>
        rw [hentry] at hw
        cases hw
        rw [Slice.entryOf_some hentry]
        exact Way.carries_occupied.2 rfl
      | none =>
        rw [hentry] at hw
        obtain ⟨wh, hres, rfl⟩ := Option.map_eq_some_iff.1 (show (x.reservationOf x.records[i].line).map Prod.fst = some w from hw)
        rw [Slice.reservationOf_some hres]
        exact Way.carries_reserved.2 rfl
    refine hx.set_way ?_ (hexact _).front (fun _ _ h => nomatch h) ?_ ?_ (fun _ b h => he b (Way.occupied.inj h).2)
    · exact fun t ht v hv h => hv (hone _ v w _ (Way.carries_occupied.1 ht ▸ h) hcarries)
    · intro j v hphase hv hset ht u e'' _ hocc
      obtain ⟨-, -, hapart⟩ := hvictims j v hphase hv
      refine hapart (Slice.entryOf_ne_none.2 ⟨u, e'', hset ▸ hocc⟩) w ?_
      rw [hset, Way.carries_occupied.1 ht]
      exact hcarries
    · rintro j v hphase hv hset ⟨e'', hocc⟩ u _ _
      have htag : tagOf v = tagOf x.records[i].line := (Way.occupied.inj hocc).1.symm
      have hvl : v = x.records[i].line := line_ext (((hhome.1 j hphase).2 v hv).trans (hhome.1 i hi).1.symm) hset htag
      have hji : j = i := hsole v j i ⟨hphase, .inr hv⟩ ⟨hi, .inl hvl.symm⟩
      subst hji
      exact (hvictims j v hphase hv).2.1 htag

/-- The end of a reservation keeps the directory consistent, and its record has none afterwards (R20). -/
theorem Slice.directoryConsistent.dropReservation (hx : x.directoryConsistent sid) (i : RecIdx) :
    (x.dropReservation sid i).directoryConsistent sid ∧ (x.dropReservation sid i).unreserved sid i := by
  obtain ⟨hwf, hone, hexact, hreserved, -, -⟩ := id hx
  have hmine {q : Nat} {v : WayIdx} {t : BitVec 15} (hway : (x.getSet q).ways[v] = .reserved t (handleOf sid i)) :
      setOf x.records[i].line = q ∧ tagOf x.records[i].line = t := by
    obtain ⟨-, -, hline⟩ := hreserved q v t _ hway
    simpa only [handleIdx_handleOf] using hline
  simp only [Slice.dropReservation]
  split
  · next hres =>
    refine ⟨hx, fun q v t hway => ?_⟩
    obtain ⟨rfl, rfl⟩ := hmine hway
    exact DirSet.findReserved_none hres v _ hway
  · next w h hres =>
    have hway := Slice.reservationOf_some hres
    split
    · refine ⟨hx.set_empty ((hexact _).keep ?_), fun q v t hv => ?_⟩
      · rw [hway]
        exact ⟨fun ⟨_, _, h⟩ => (nomatch h), fun ⟨_, _, h⟩ => (nomatch h)⟩
      · rw [Slice.getSet_putSet hwf] at hv
        split at hv
        · next hq =>
          simp only [DirSet.setWay, getElem_set_ways] at hv
          split at hv
          · cases hv
          · next hne =>
            subst hq
            obtain ⟨-, rfl⟩ := hmine hv
            exact hne (hone _ v w _ (hv ▸ Way.carries_reserved.2 rfl) (hway ▸ Way.carries_reserved.2 rfl))
        · next hq => exact hq (hmine hv).1.symm
    · next hne =>
      refine ⟨hx, fun q v t hv => hne ?_⟩
      obtain ⟨rfl, rfl⟩ := hmine hv
      have hvw : v = w := hone _ v w _ (hv ▸ Way.carries_reserved.2 rfl) (hway ▸ Way.carries_reserved.2 rfl)
      subst hvw
      exact (Way.reserved.inj (hway.symm.trans hv)).2

theorem setOf_lt (l : LineAddr) : setOf l < 2048 := by
  rw [setOf_eq_div_mod]
  exact Nat.mod_lt _ (by decide)

/-- The place of a record that has started keeps the directory consistent (R110, R111, R112). -/
theorem Slice.Placed.directoryConsistent {z : Slice} (h : Slice.Placed sid i z y) (hz : z.directoryConsistent sid)
    (hhome : z.linesAtHome sid) (hsole : z.soleHolders) (hi : z.records[i].phase ≠ .free) (hvictim : z.records[i].victim = none)
    (hfree : z.unreserved sid i) : y.directoryConsistent sid := by
  obtain ⟨hwf, hone, hexact, hreserved, hvictims, hsharers, hplans⟩ := id hz
  have hnoway (habsent : z.entryOf z.records[i].line = none) (v : WayIdx) :
      ¬((z.getSet (setOf z.records[i].line)).ways[v]).carries (tagOf z.records[i].line) := by
    rintro (⟨e, hocc⟩ | ⟨h, hres⟩)
    · exact DirSet.findEntry_none habsent v e hocc
    · obtain ⟨hslice, hphase, hset, htag⟩ := hreserved _ v _ h hres
      have hidx : handleIdx h = i := Slice.holder_unique hhome hsole hphase hi hset htag
      exact hfree _ v _ (by rw [← hidx, ← hslice, handleOf_handleSlice_handleIdx]; exact hres)
  cases h with
  | plain => exact hz
  | reserve w habsent hempty =>
    refine hz.set_reserved hhome hsole hi rfl (fun v _ => hnoway habsent v) ((hexact _).keep ?_) fun v hv => ?_
    · rw [hempty]
      exact ⟨fun ⟨_, _, h⟩ => (nomatch h), fun ⟨_, _, h⟩ => (nomatch h)⟩
    · rw [hvictim] at hv; cases hv
  | victim w t e habsent hway hunheld =>
    refine ⟨hwf, hone, hexact, ?_, ?_, hsharers, ?_⟩
    · intro q u t' h hq
      obtain ⟨hslice, hphase, hline⟩ := hreserved q u t' h hq
      simp only [Slice.getElem_set_records]
      split
      · next hidx => exact ⟨hslice, hidx ▸ hphase, hidx ▸ hline⟩
      · exact ⟨hslice, hphase, hline⟩
    · intro j v
      simp only [Slice.getElem_set_records]
      split
      · next hji =>
        rintro - hv
        cases hv
        have hset : setOf (lineOf sid (setOf z.records[i].line) t) = setOf z.records[i].line := setOf_lineOf sid t (setOf_lt _)
        refine ⟨hset, ?_, fun _ u => ?_⟩
        · rw [tagOf_lineOf]
          exact fun ht => DirSet.findEntry_none habsent w e (ht ▸ hway)
        · rw [hset]
          exact hnoway habsent u
      · exact hvictims j v
    · intro j a
      simp only [Slice.getElem_set_records]
      split
      · next hji => exact fun ha => hplans i a ha
      · exact hplans j a

/-- The directory with record i's reservation gone and a record without victim and plan in its place. -/
theorem Slice.directoryConsistent.replaceRecord {r : Record} (hx : x.directoryConsistent sid) (i : RecIdx) (hvictim : r.victim = none)
    (hplan : r.plan = .none) :
    (x.replaceRecord sid i r).directoryConsistent sid ∧ (x.replaceRecord sid i r).unreserved sid i := by
  obtain ⟨hdrop, hfree⟩ := hx.dropReservation i
  have hset := hdrop.set_record hfree hvictim hplan
  rw [Slice.dropReservation_records] at hset
  exact ⟨hset, hfree⟩

/-- While the lines are at home and held by one record each, every act keeps the directory consistent. -/
theorem Slice.Act.directoryConsistent (henters : ∀ l, enters l → sliceOf l = sid) (h : Slice.Act sid enters x y)
    (hhome : x.linesAtHome sid) (hsole : x.soleHolders) (hx : x.directoryConsistent sid) : y.directoryConsistent sid := by
  obtain ⟨-, -, -, -, -, -, hplans⟩ := id hx
  cases h with
  | paths _ hdir hrec => exact hx.congr hdir hrec
  | records v hv => exact hx.of_keeps rfl hv
  | engine _ hdir hrec => exact hx.congr hdir hrec
  | order => exact hx
  | submitted => exact hx
  | queue => exact hx
  | unqueue => exact hx
  | free l => exact hx.freeEntry hhome hsole l
  | rewrite l e he => exact hx.rewriteEntry l he
  | grant i e hi he => exact hx.grantEntry hhome hsole hi fun a ha => hplans i a (he a ha)
  | ended i => exact (hx.replaceRecord i rfl rfl).1
  | start b i r _ hb hi hfree hr hline hplaced =>
    have hstarted : Slice.Act sid enters x { b with records := b.records.set i r } := .start b i r _ hb hi hfree hr hline .plain
    have hb' : b.directoryConsistent sid := hx.congr hb.dir hb.records
    have hunreserved : b.unreserved sid i := hb'.unreserved (by rw [hb.records]; exact hi)
    refine hplaced.directoryConsistent (hb'.set_record hunreserved hr.2.1 hr.2.2) (hstarted.linesAtHome henters hhome)
      (hstarted.soleHolders hsole) ?_ ?_ hunreserved
    · simpa using hr.1
    · simpa using hr.2.1
  | hand i r _ hi hline hr hplaced =>
    have hstarted : Slice.Act sid enters x (x.replaceRecord sid i r) := .hand i r _ hi hline hr .plain
    obtain ⟨hreplaced, hunreserved⟩ := hx.replaceRecord i hr.2.1 hr.2.2
    refine hplaced.directoryConsistent hreplaced (hstarted.linesAtHome henters hhome) (hstarted.soleHolders hsole) ?_ ?_ hunreserved
    · simpa [Slice.replaceRecord] using hr.1
    · simpa [Slice.replaceRecord] using hr.2.1

end

end Sys2Proof.Machine

/-!
What becomes of a link unit: every function that changes one keeps its bounds (R136, R141, R145, R146, R132) and the lines of its
message paths at home (R3).
-/

namespace Sys2Proof.Machine

/-! ## Lines on the message paths -/

/-- The line of a request or return on a message path (R131). -/
def SliceMsg.line : SliceMsg → Option LineAddr
  | .request _ _ l _ | .returned _ l _ => some l
  | .reply _ _ _ | .grantAck _ | .release => none

/-- A request or return stands at the slice of its line (R3). -/
def SliceMsg.atHome (sid : SliceId) (m : SliceMsg) : Prop := ∀ l, m.line = some l → sliceOf l = sid

/-- The requests and returns on the paths that leave the link unit stand at the slices of their lines (R3, R131). -/
def LinkUnit.linesAtHome (u : LinkUnit) : Prop := ∀ (sid : SliceId) (m : SliceMsg), m ∈ u.toSlice[sid] → m.atHome sid

theorem LinkUnit.linesAtHome_iff (u : LinkUnit) : u.linesAtHome ↔ ∀ sid : SliceId,
    (∀ k t l w, SliceMsg.request k t l w ∈ u.toSlice[sid] → sliceOf l = sid)
      ∧ ∀ t l d, SliceMsg.returned t l d ∈ u.toSlice[sid] → sliceOf l = sid := by
  refine forall_congr' fun sid => ⟨fun h => ⟨fun k t l w hm => h _ hm l rfl, fun t l d hm => h _ hm l rfl⟩, fun h m hm l hl => ?_⟩
  obtain ⟨hrequest, hreturned⟩ := h
  cases m with
  | request k t l' w => cases hl; exact hrequest k t _ w hm
  | returned t l' d => cases hl; exact hreturned t _ d hm
  | reply => cases hl
  | grantAck => cases hl
  | release => cases hl

/-! ## The relation -/

/-- The link unit `u'` may follow `u`: the bounds and the lines' places carry over. -/
structure LinkUnit.Follows (u u' : LinkUnit) : Prop where
  bounded : u.bounded → u'.bounded
  linesAtHome : u.linesAtHome → u'.linesAtHome

section
variable {u u' v : LinkUnit} {n : Agent}

theorem LinkUnit.Follows.refl (u : LinkUnit) : u.Follows u := ⟨id, id⟩

theorem LinkUnit.Follows.trans (h : u.Follows u') (h' : u'.Follows v) : u.Follows v :=
  ⟨h'.bounded ∘ h.bounded, h'.linesAtHome ∘ h.linesAtHome⟩

/-- A change that gives nothing to the bounded tables and puts nothing on the message paths. -/
theorem LinkUnit.Follows.of_le (hreservations : u'.reservations ≤ u.reservations) (hconsecutive : u'.consecutive ≤ u.consecutive)
    (hconfirm : u'.confirm.Sublist u.confirm)
    (hretry : ∀ h : Handle, u'.responses.count (.replyRetry h) ≤ u.responses.count (.replyRetry h))
    (hfenced : u'.state ∈ [.fencedSweeping, .fencedSwept] → u'.requestChannel = [] ∨
      u.state ∈ [.fencedSweeping, .fencedSwept] ∧ u'.requestChannel = u.requestChannel)
    (hpaths : u'.toSlice = u.toSlice) : u.Follows u' := by
  constructor
  · rintro ⟨hr, hc, hn, hq, hf⟩
    refine ⟨hreservations.trans hr, hconsecutive.trans hc, hn.sublist hconfirm, fun h => (hretry h).trans (hq h), fun hst => ?_⟩
    obtain h | ⟨hs, h⟩ := hfenced hst
    · exact h
    · exact h.trans (hf hs)
  · intro h sid m hm
    exact h sid m (hpaths ▸ hm)

/-- A change of what neither the bounds nor the lines' places speak of. -/
theorem LinkUnit.Follows.of_eq (hstate : u'.state = u.state) (hreservations : u'.reservations = u.reservations)
    (hconsecutive : u'.consecutive = u.consecutive) (hconfirm : u'.confirm = u.confirm) (hresponses : u'.responses = u.responses)
    (hchannel : u'.requestChannel = u.requestChannel) (hpaths : u'.toSlice = u.toSlice) : u.Follows u' :=
  .of_le hreservations.le hconsecutive.le (hconfirm ▸ .refl _) (fun _ => hresponses ▸ le_rfl)
    (fun h => .inr ⟨hstate ▸ h, hchannel⟩) hpaths

/-! ## The operations -/

/-- A message other than a DataRetry of the reply-retry list (R146). -/
theorem LinkUnit.Follows.push {m : Outbound} (hm : ∀ h, m ≠ .replyRetry h) (u : LinkUnit) : u.Follows (u.push m) := by
  refine .of_le le_rfl le_rfl (.refl _) (fun h => ?_) (fun h => .inr ⟨h, rfl⟩) rfl
  have hcount : [m].count (.replyRetry h) = 0 := List.count_eq_zero_of_not_mem fun hin => hm h (List.mem_singleton.1 hin).symm
  rw [LinkUnit.push_responses, List.count_append, hcount, Nat.add_zero]

theorem LinkUnit.Follows.pushFinal (r : Response) (u : LinkUnit) : u.Follows (u.push (.final r)) := .push (by simp) u

theorem LinkUnit.Follows.pushControl (c : Control) (u : LinkUnit) : u.Follows (u.push (.control c)) := .push (by simp) u

theorem LinkUnit.Follows.queueReplyRetry (h : Handle) (u : LinkUnit) : u.Follows (u.queueReplyRetry h) := by
  by_cases hm : Outbound.replyRetry h ∈ u.responses
  · rw [LinkUnit.queueReplyRetry_of_mem hm]
    exact .refl u
  · constructor
    · rintro ⟨hr, hc, hn, hq, hf⟩
      have hretry : ∀ k : Handle, (u.queueReplyRetry h).responses.count (.replyRetry k) ≤ 1 := fun k =>
        LinkUnit.count_queueReplyRetry h k (hq k)
      rw [LinkUnit.queueReplyRetry_of_not_mem hm] at hretry ⊢
      exact ⟨hr, hc, hn, hretry, hf⟩
    · rw [LinkUnit.queueReplyRetry_of_not_mem hm]
      exact id

theorem LinkUnit.Follows.notifyAll (x : Notice) (u : LinkUnit) : u.Follows (u.notifyAll x) := .of_eq rfl rfl rfl rfl rfl rfl rfl

/-- A link state other than FENCED is entered. -/
theorem LinkUnit.Follows.enter {st : LinkState} (hst : st ∉ [.fencedSweeping, .fencedSwept]) (u : LinkUnit) : u.Follows (u.enter st) :=
  .of_le le_rfl le_rfl (.refl _) (fun _ => le_rfl) (fun h => absurd h hst) rfl

theorem LinkUnit.Follows.discard (u : LinkUnit) : u.Follows u.discard := .of_eq rfl rfl rfl rfl rfl rfl rfl

theorem LinkUnit.Follows.countRetry (r : Response) (u : LinkUnit) : u.Follows (u.countRetry r) := by
  rw [LinkUnit.countRetry_eq]
  exact .of_eq rfl rfl rfl rfl rfl rfl rfl

theorem LinkUnit.Follows.setTag (t : Tag) (b : Bool) (u : LinkUnit) : u.Follows (u.setTag t b) := .of_eq rfl rfl rfl rfl rfl rfl rfl

/-- A message on a path, which, if it is a request or a return, belongs there (R131). -/
theorem LinkUnit.Follows.route {sid : SliceId} {m : SliceMsg} (hm : m.atHome sid) (u : LinkUnit) : u.Follows (u.route sid m) := by
  refine ⟨id, fun h sid' m' hm' => ?_⟩
  rw [LinkUnit.route_toSlice] at hm'
  by_cases hs : sid' = sid
  · subst hs
    simp only [Fin.getElem_fin, Vector.getElem_set_self, List.mem_append, List.mem_singleton] at hm'
    obtain hm' | rfl := hm'
    · exact h sid' m' hm'
    · exact hm
  · have hne : sid.val ≠ sid'.val := fun e => hs (Fin.ext e.symm)
    rw [Fin.getElem_fin, Vector.getElem_set_ne _ _ hne] at hm'
    exact h sid' m' hm'

theorem LinkUnit.Follows.forward {m : SliceMsg} (hm : m.line = none) (h : Handle) (u : LinkUnit) : u.Follows (u.forward h m) :=
  .route (fun l hl => by rw [hm] at hl; cases hl) u

theorem LinkUnit.Follows.settleDrain (u : LinkUnit) : u.Follows u.settleDrain := by
  unfold LinkUnit.settleDrain
  split
  · have hcleared : u.Follows { u with slicesReported := 0#4 } := .of_eq rfl rfl rfl rfl rfl rfl rfl
    exact (hcleared.trans (.enter (by decide) _)).trans (.notifyAll _ _)
  · exact .refl u

theorem LinkUnit.Follows.startDrain (u : LinkUnit) : u.Follows u.startDrain :=
  ((LinkUnit.Follows.enter (by decide) u).trans (.notifyAll _ _)).trans (.settleDrain _)

theorem LinkUnit.Follows.farewell (u : LinkUnit) : u.Follows u.farewell := by
  unfold LinkUnit.farewell
  split
  · have hcleared : u.Follows { u with cls := .unset, heldHello := none, confirm := [], slicesReported := 0#4 } :=
      .of_le le_rfl le_rfl (List.nil_sublist _) (fun _ => le_rfl) (fun h => .inr ⟨h, rfl⟩) rfl
    exact (hcleared.trans (.pushControl _ _)).trans (.enter (by decide) _)
  · exact .refl u

theorem LinkUnit.Follows.countFault (f : FaultRecord) (u : LinkUnit) : u.Follows (u.countFault f) := .of_eq rfl rfl rfl rfl rfl rfl rfl

/-- The fence event empties the bounded tables and the request channel (R132, R152, R157). -/
theorem LinkUnit.Follows.fence (f : FaultRecord) (u : LinkUnit) : u.Follows (u.fence f) :=
  .of_le (Nat.zero_le _) le_rfl (List.nil_sublist _) (fun _ => Nat.zero_le _) (fun _ => .inl rfl) rfl

theorem LinkUnit.Follows.dropSession (u : LinkUnit) : u.Follows u.dropSession :=
  .of_le le_rfl le_rfl (.refl _) (fun _ => List.filter_sublist.count_le _) (fun h => .inr ⟨h, rfl⟩) rfl

theorem LinkUnit.Follows.depart (u : LinkUnit) : u.Follows u.depart := by
  unfold LinkUnit.depart
  split
  · exact .refl u
  · next r ms hresponses =>
    split
    · exact .refl u
    · exact .of_le (Nat.sub_le _ _) le_rfl (.refl _) (fun _ => by rw [hresponses]; exact (List.sublist_cons_self _ _).count_le _)
        (fun h => .inr ⟨h, rfl⟩) rfl
  · next c ms hresponses =>
    exact .of_le le_rfl le_rfl (.refl _) (fun _ => by rw [hresponses]; exact (List.sublist_cons_self _ _).count_le _)
      (fun h => .inr ⟨h, rfl⟩) rfl
  · next k ms hresponses =>
    exact .of_le le_rfl le_rfl (.refl _) (fun _ => by rw [hresponses]; exact (List.sublist_cons_self _ _).count_le _)
      (fun h => .inr ⟨h, rfl⟩) rfl

/-- A grant's handle joins the confirm set, which holds it once (R141). -/
theorem LinkUnit.Follows.confirm (h : Handle) (u : LinkUnit) :
    u.Follows { u with confirm := if h ∈ u.confirm then u.confirm else u.confirm ++ [h] } := by
  refine ⟨fun ⟨hr, hc, hn, hq, hf⟩ => ⟨hr, hc, ?_, hq, hf⟩, id⟩
  dsimp only
  split
  · exact hn
  · next hm =>
    rw [List.nodup_append]
    exact ⟨hn, List.nodup_singleton h, fun a ha b hb => by rw [List.mem_singleton.1 hb]; exact fun e => hm (e ▸ ha)⟩

theorem LinkUnit.Follows.takeResponse (r : Response) (u : LinkUnit) : u.Follows (u.takeResponse r) := by
  have hplaced : u.Follows (((u.push (.final r)).setTag r.tag false).countRetry r) :=
    ((LinkUnit.Follows.pushFinal r u).trans (.setTag _ _ _)).trans (.countRetry r _)
  simp only [LinkUnit.takeResponse]
  refine .trans (.trans (hplaced.trans ?_) (.settleDrain _)) (.farewell _)
  split
  · exact .confirm _ _
  · exact .refl _

theorem LinkUnit.Follows.fenceReported (sid : SliceId) (u : LinkUnit) : u.Follows (u.fenceReported sid) := by
  simp only [LinkUnit.fenceReported]
  split
  · next hst =>
    have hin : u.state ∈ [LinkState.fencedSweeping, .fencedSwept] := hst ▸ List.mem_cons_self
    split
    · exact .of_le le_rfl le_rfl (.refl _) (fun _ => le_rfl) (fun _ => .inr ⟨hin, rfl⟩) rfl
    · exact .of_eq rfl rfl rfl rfl rfl rfl rfl
  · exact .refl u

theorem LinkUnit.Follows.queueFlush (u : LinkUnit) : u.Follows u.queueFlush := by
  unfold LinkUnit.queueFlush
  split
  · exact .pushControl _ u
  · exact .refl u

/-- A release notice to each slice is no request or return (R168). -/
theorem LinkUnit.Follows.releaseFence (u : LinkUnit) : u.Follows u.releaseFence := by
  have hrelease : u.Follows { u with cls := .unset, toSlice := u.toSlice.map (· ++ [.release]) } := by
    refine ⟨id, fun h sid m hm => ?_⟩
    simp only [Fin.getElem_fin, Vector.getElem_map, List.mem_append, List.mem_singleton] at hm
    obtain hm | rfl := hm
    · exact h sid m hm
    · exact fun l hl => nomatch hl
  exact hrelease.trans (.enter (by decide) _)

/-- A message of a path is taken. -/
theorem LinkUnit.Follows.taken {sid : SliceId} {m : SliceMsg} {ms : List SliceMsg} (h : u.toSlice[sid] = m :: ms) :
    u.Follows { u with toSlice := u.toSlice.set sid ms } := by
  refine ⟨id, fun hu sid' m' hm' => ?_⟩
  by_cases hs : sid' = sid
  · subst hs
    simp only [Fin.getElem_fin, Vector.getElem_set_self] at hm'
    exact hu sid' m' (h ▸ List.mem_cons_of_mem m hm')
  · have hne : sid.val ≠ sid'.val := fun e => hs (Fin.ext e.symm)
    simp only [Fin.getElem_fin, Vector.getElem_set_ne _ _ hne] at hm'
    exact hu sid' m' hm'

theorem LinkUnit.bounded_initial : LinkUnit.initial.bounded :=
  ⟨by decide, by decide, List.nodup_nil, fun _ => by simp [LinkUnit.initial], fun _ => rfl⟩

theorem LinkUnit.linesAtHome_initial : LinkUnit.initial.linesAtHome := by
  intro sid m hm
  simp [LinkUnit.initial] at hm

/-- A hard reset leaves the counters and the fault record alone (R154). -/
theorem LinkUnit.Follows.hardReset (u : LinkUnit) : u.Follows u.hardReset :=
  ⟨fun _ => LinkUnit.bounded_initial, fun _ => LinkUnit.linesAtHome_initial⟩

end

end Sys2Proof.Machine

/-!
What becomes of the whole part in an event, block by block: the relation between the state before and the state after that carries
every invariant over, and the events of the running part in it.
-/

namespace Sys2Proof.Machine

/-! ## The relation -/

theorem State.linesAtHome_iff (s : State) : s.linesAtHome ↔ (∀ sid : SliceId, s.slices[sid].linesAtHome sid)
    ∧ (∀ n : Agent, s.links[n].linesAtHome) ∧ ∀ (sid : SliceId) (l : LineAddr), CommandMsg.scrub l ∈ s.mgmt.cmdPath[sid] → sliceOf l = sid := by
  simp only [State.linesAtHome, LinkUnit.linesAtHome_iff]

/-- The state `t` may follow `s`: every invariant carries over, and where `still` the DRAM is the same. -/
structure State.Follows (still : Prop) (s t : State) : Prop where
  bounded : s.bounded → t.bounded
  soleHolders : s.soleHolders → t.soleHolders
  freeRecordsIdle : s.freeRecordsIdle → t.freeRecordsIdle
  linesAtHome : s.linesAtHome → t.linesAtHome
  directoryConsistent : s.soleHolders → s.linesAtHome → s.directoryConsistent → t.directoryConsistent
  memoryCanonical : s.memoryCanonical → t.memoryCanonical
  clearStoresNothing : s.clearStoresNothing → t.clearStoresNothing
  dram : still → t.mem.dram = s.mem.dram

section
variable {still : Prop} {s t t' : State} {n : Agent} {sid : SliceId}

theorem State.Follows.refl (s : State) : s.Follows still s := ⟨id, id, id, id, fun _ _ => id, id, id, fun _ => rfl⟩

theorem State.Follows.trans (h : s.Follows still t) (h' : t.Follows still t') : s.Follows still t' where
  bounded := h'.bounded ∘ h.bounded
  soleHolders := h'.soleHolders ∘ h.soleHolders
  freeRecordsIdle := h'.freeRecordsIdle ∘ h.freeRecordsIdle
  linesAtHome := h'.linesAtHome ∘ h.linesAtHome
  directoryConsistent hs hl hd := h'.directoryConsistent (h.soleHolders hs) (h.linesAtHome hl) (h.directoryConsistent hs hl hd)
  memoryCanonical := h'.memoryCanonical ∘ h.memoryCanonical
  clearStoresNothing := h'.clearStoresNothing ∘ h.clearStoresNothing
  dram hs := (h'.dram hs).trans (h.dram hs)

/-- Invariants along a list, one element after another. -/
theorem State.Follows.foldl {α : Type} {f : State → α → State} (h : ∀ (s : State) a, s.Follows still (f s a)) (l : List α) (s : State) :
    s.Follows still (l.foldl f s) := by
  induction l generalizing s with
  | nil => exact .refl s
  | cons a l ih => exact (h s a).trans (ih (f s a))

/-- Every link unit follows; the other blocks stay. -/
theorem State.Follows.ofLinks (hlinks : ∀ n : Agent, s.links[n].Follows t.links[n]) (hslices : t.slices = s.slices) (hmem : t.mem = s.mem)
    (hmgmt : t.mgmt = s.mgmt) : s.Follows still t where
  bounded := fun ⟨hl, hs, hq⟩ => ⟨fun n => (hlinks n).bounded (hl n), hslices ▸ hs, hmem ▸ hmgmt ▸ hq⟩
  soleHolders := fun h sid => hslices ▸ h sid
  freeRecordsIdle := fun h sid => hslices ▸ h sid
  linesAtHome := by
    rw [State.linesAtHome_iff, State.linesAtHome_iff]
    exact fun ⟨hs, hl, hc⟩ => ⟨hslices ▸ hs, fun n => (hlinks n).linesAtHome (hl n), hmgmt ▸ hc⟩
  directoryConsistent := fun _ _ h sid => hslices ▸ h sid
  memoryCanonical := fun h => by rw [State.memoryCanonical, hmem]; exact h
  clearStoresNothing := fun h => by rw [State.clearStoresNothing, hmem]; exact h
  dram _ := by rw [hmem]

theorem State.getElem_set_links (v : Vector LinkUnit 8) (n m : Agent) (u : LinkUnit) :
    (v.set n u)[m] = if m = n then u else v[m] := by
  by_cases h : m = n
  · subst h; simp
  · rw [if_neg h]
    exact Vector.getElem_set_ne n.isLt m.isLt fun e => h (Fin.ext e.symm)

theorem State.getElem_set_slices (v : Vector Slice 4) (sid sid' : SliceId) (x : Slice) :
    (v.set sid x)[sid'] = if sid' = sid then x else v[sid'] := by
  by_cases h : sid' = sid
  · subst h; simp
  · rw [if_neg h]
    exact Vector.getElem_set_ne sid.isLt sid'.isLt fun e => h (Fin.ext e.symm)

theorem State.Follows.updLink {f : LinkUnit → LinkUnit} (h : s.links[n].Follows (f s.links[n])) : s.Follows still (s.updLink n f) := by
  refine .ofLinks (fun m => ?_) rfl rfl rfl
  rw [State.updLink_links, State.getElem_set_links]
  split
  · next hm => exact hm ▸ h
  · exact .refl _

/-- A slice is changed by acts; the lines that enter it are at home while every line was before the event. -/
theorem State.Follows.acts {enters : LineAddr → Prop} {y : Slice} (h : s.Follows still t)
    (henters : s.linesAtHome → ∀ l, enters l → sliceOf l = sid) (hacts : Slice.Acts sid enters t.slices[sid] y) :
    s.Follows still (t.updSlice sid fun _ => y) := by
  have hslices (sid' : SliceId) : (t.updSlice sid fun _ => y).slices[sid'] = if sid' = sid then y else t.slices[sid'] := by
    rw [State.updSlice_slices, State.getElem_set_slices]
  have keeps {P : SliceId → Slice → Prop} (hP : ∀ x z, Slice.Act sid enters x z → P sid x → P sid z) (ht : ∀ sid', P sid' t.slices[sid'])
      (sid' : SliceId) : P sid' (t.updSlice sid fun _ => y).slices[sid'] := by
    rw [hslices]
    split
    · next hs => exact hs ▸ Slice.Acts.keeps hP hacts (ht sid)
    · exact ht sid'
  have home (hs : s.linesAtHome) : (t.updSlice sid fun _ => y).linesAtHome := by
    have ht := h.linesAtHome hs
    rw [State.linesAtHome_iff] at ht ⊢
    obtain ⟨hts, hrest⟩ := ht
    exact ⟨keeps (P := fun sid x => x.linesAtHome sid) (fun _ _ ha => ha.linesAtHome (henters hs)) hts, hrest⟩
  refine ⟨?_, ?_, ?_, home, ?_, h.memoryCanonical, h.clearStoresNothing, h.dram⟩
  · intro hs
    obtain ⟨hl, ht, hq⟩ := h.bounded hs
    exact ⟨hl, keeps (P := fun _ x => x.bounded) (fun _ _ ha => ha.bounded) ht, hq⟩
  · exact fun hs => keeps (P := fun _ x => x.soleHolders) (fun _ _ ha => ha.soleHolders) (h.soleHolders hs)
  · exact fun hs => keeps (P := fun _ x => x.freeRecordsIdle) (fun _ _ ha => ha.freeRecordsIdle) (h.freeRecordsIdle hs)
  · intro hsole hhome hdir sid'
    have ht := h.linesAtHome hhome
    rw [State.linesAtHome_iff] at ht
    have hall := keeps (P := fun sid x => x.soleHolders ∧ x.linesAtHome sid ∧ x.directoryConsistent sid)
      (fun _ _ ha ⟨hsole', hhome', hdir'⟩ => ⟨ha.soleHolders hsole', ha.linesAtHome (henters hhome) hhome',
        ha.directoryConsistent (henters hhome) hhome' hsole' hdir'⟩)
      (fun sid' => ⟨h.soleHolders hsole sid', ht.1 sid', h.directoryConsistent hsole hhome hdir sid'⟩) sid'
    exact hall.2.2

/-- The management unit: the timeouts stay at least 1 (R199), and a Scrub on a command path goes to the slice of its line (R205). -/
theorem State.Follows.updMgmt {f : Mgmt → Mgmt} (hresponse : s.mgmt.responseTimeout ≠ 0#8 → (f s.mgmt).responseTimeout ≠ 0#8)
    (hflush : s.mgmt.flushTimeout ≠ 0#8 → (f s.mgmt).flushTimeout ≠ 0#8)
    (hpath : ∀ (sid : SliceId) (l : LineAddr), CommandMsg.scrub l ∈ (f s.mgmt).cmdPath[sid] →
      CommandMsg.scrub l ∈ s.mgmt.cmdPath[sid] ∨ sliceOf l = sid) : s.Follows still (s.updMgmt f) where
  bounded := fun ⟨hl, hs, hq, hr, hf⟩ => ⟨hl, hs, hq, hresponse hr, hflush hf⟩
  soleHolders := id
  freeRecordsIdle := id
  linesAtHome := fun ⟨hs, hl, hc⟩ => ⟨hs, hl, fun sid l h => (hpath sid l h).elim (hc sid l) id⟩
  directoryConsistent _ _ := id
  memoryCanonical := id
  clearStoresNothing := id
  dram _ := rfl

/-- The management unit, with its timeouts and its command paths left. -/
theorem State.Follows.updMgmt_same {f : Mgmt → Mgmt} (hresponse : (f s.mgmt).responseTimeout = s.mgmt.responseTimeout)
    (hflush : (f s.mgmt).flushTimeout = s.mgmt.flushTimeout) (hpath : (f s.mgmt).cmdPath = s.mgmt.cmdPath) :
    s.Follows still (s.updMgmt f) :=
  .updMgmt (by rw [hresponse]; exact id) (by rw [hflush]; exact id) fun sid l h => .inl (by rw [hpath] at h; exact h)

/-- The memory channel, with its DRAM left: the queue keeps to its places (R174). -/
theorem State.Follows.updMem {f : MemChannel → MemChannel} (hqueue : s.mem.queue.length ≤ 64 → (f s.mem).queue.length ≤ 64)
    (hdram : (f s.mem).dram = s.mem.dram) : s.Follows still (s.updMem f) where
  bounded := fun ⟨hl, hs, hq, hr⟩ => ⟨hl, hs, hqueue hq, hr⟩
  soleHolders := id
  freeRecordsIdle := id
  linesAtHome := id
  directoryConsistent _ _ := id
  memoryCanonical h := by rw [State.memoryCanonical, State.updMem_mem, hdram]; exact h
  clearStoresNothing h := by rw [State.clearStoresNothing, State.updMem_mem, hdram]; exact h
  dram _ := hdram

/-- The DRAM is written or cleared, which no `still` event does. -/
theorem State.Follows.updDram {f : MemChannel → MemChannel} (hqueue : (f s.mem).queue = s.mem.queue)
    (hwf : Memory.wf s.mem.dram = true → Memory.wf (f s.mem).dram = true)
    (hclear : (f s.mem).dram.clearRunning = true → s.mem.dram.clearRunning = true ∧
      (s.mem.dram.cells = [] → s.mem.dram.marks = [] → s.mem.dram.known = [] →
        (f s.mem).dram.cells = [] ∧ (f s.mem).dram.marks = [] ∧ (f s.mem).dram.known = []))
    (hstill : ¬still) : s.Follows still (s.updMem f) where
  bounded := fun ⟨hl, hs, hq, hr⟩ => ⟨hl, hs, by rw [State.updMem_mem, hqueue]; exact hq, hr⟩
  soleHolders := id
  freeRecordsIdle := id
  linesAtHome := id
  directoryConsistent _ _ := id
  memoryCanonical := hwf
  clearStoresNothing h hrunning := by
    obtain ⟨hruns, hnothing⟩ := hclear hrunning
    obtain ⟨hcells, hmarks, hknown⟩ := h hruns
    exact hnothing hcells hmarks hknown
  dram h := absurd h hstill

/-- The clock, the pins, the straps and the queue of commands are no part of any invariant. -/
theorem State.Follows.frame (hlinks : t.links = s.links) (hslices : t.slices = s.slices) (hmem : t.mem = s.mem) (hmgmt : t.mgmt = s.mgmt) :
    s.Follows still t := .ofLinks (fun _ => hlinks ▸ .refl _) hslices hmem hmgmt

/-! ## What every event is made of -/

theorem State.Follows.raiseAlert (item : BitVec 19) (s : State) : s.Follows still (s.raiseAlert item) := .updMgmt_same rfl rfl rfl

theorem State.Follows.setOffset (off : BitVec 8) (s : State) : s.Follows still (s.setOffset off) := .updMgmt_same rfl rfl rfl

theorem State.Follows.whileReleased {f : State → State} (hf : s.Follows still (f s)) (h : whileReleased s f = .next t) :
    s.Follows still t := by
  obtain rfl | rfl := whileReleased_next s t f h
  · exact hf
  · exact .refl _

theorem State.Follows.messageEvent {received : Bool} {f : State → State} (hf : s.Follows still (f s))
    (h : messageEvent n received s f = .next t) : s.Follows still t := by
  unfold Machine.messageEvent at h
  split at h
  · cases h; exact hf
  · cases h
    split
    · exact .updLink (.discard _)
    · exact .refl s
  · cases h; exact .refl s

/-- An event of a slice: acts, and the slice goes on. -/
theorem State.Follows.sliceEvent {enters : LineAddr → Prop} {wake : Bool} {f : Env → Slice → Slice} (h : s.Follows still t)
    (henters : s.linesAtHome → ∀ l, enters l → sliceOf l = sid)
    (hf : ∀ (env : Env) (x : Slice), env.sid = sid → Slice.Acts env.sid enters x (f env x)) :
    s.Follows still (t.sliceEvent sid wake f) :=
  h.acts henters ((hf (t.env sid) _ rfl).trans (.goOn wake _))

/-- An event of a slice to which no message brings a line. -/
theorem State.Follows.sliceEventInner {wake : Bool} {f : Env → Slice → Slice} (h : s.Follows still t)
    (hf : ∀ (env : Env) (x : Slice), env.sid = sid → Slice.Acts env.sid (fun _ => False) x (f env x)) :
    s.Follows still (t.sliceEvent sid wake f) := h.sliceEvent (fun _ _ h => h.elim) hf

/-! ## The paths -/

/-- A message of a message path brings its line, which is at home. -/
theorem State.Follows.takeFromLink {f : SliceMsg → Option (Env → Slice → Slice)}
    (hf : ∀ m g, f m = some g → ∀ (env : Env) (x : Slice), Slice.Acts env.sid (fun l => m.line = some l) x (g env x)) :
    s.Follows still (s.takeFromLink sid n f) := by
  unfold State.takeFromLink
  split
  · exact .refl s
  · next m ms hpath =>
    split
    · exact .refl s
    · next g hg =>
      refine .sliceEvent (.updLink (.taken hpath)) (fun hhome => ?_) fun env x _ => hf m g hg env x
      obtain ⟨-, hlinks, -⟩ := (State.linesAtHome_iff s).1 hhome
      exact hlinks n sid m (hpath ▸ List.mem_cons_self)

theorem State.Follows.takeNotice {x : Notice} {wake : Bool} {f : Env → Slice → Slice}
    (hf : ∀ (env : Env) (y : Slice), Slice.Acts env.sid (fun _ => False) y (f env y)) : s.Follows still (s.takeNotice sid n x wake f) := by
  unfold State.takeNotice
  split
  · exact .refl s
  · split
    · exact .sliceEventInner (.updLink (.of_eq rfl rfl rfl rfl rfl rfl rfl)) fun env y _ => hf env y
    · exact .refl s

/-- A command of a command path leaves fewer Scrubs there. -/
theorem State.Follows.takeCommand {f : CommandMsg → Option (Env → Slice → Slice)}
    (hf : ∀ m g, f m = some g → ∀ (env : Env) (x : Slice), Slice.Acts env.sid (fun l => m = .scrub l) x (g env x)) :
    s.Follows still (s.takeCommand sid f) := by
  unfold State.takeCommand
  split
  · exact .refl s
  · next m ms hpath =>
    split
    · exact .refl s
    · next g hg =>
      refine .sliceEvent (.updMgmt id id fun sid' l h => .inl ?_) (fun hhome l hm => ?_) fun env x _ => hf m g hg env x
      · dsimp only at h
        by_cases hs : sid' = sid
        · subst hs
          simp only [Fin.getElem_fin, Vector.getElem_set_self] at h
          exact hpath ▸ List.mem_cons_of_mem m h
        · have hne : sid.val ≠ sid'.val := fun e => hs (Fin.ext e.symm)
          rwa [Fin.getElem_fin, Vector.getElem_set_ne _ _ hne] at h
      · obtain ⟨-, -, hcommands⟩ := hhome
        exact hcommands sid l (by rw [hpath, hm]; exact List.mem_cons_self)

theorem State.Follows.popToLink (sid : SliceId) (n : Agent) (s : State) : s.Follows still (s.popToLink sid n) :=
  .acts (.refl s) (fun _ _ h => h) (.ofPaths (enters := fun l => sliceOf l = sid) rfl rfl rfl rfl rfl)

theorem State.Follows.takeFromSlice {f : LinkMsg → Option (State → State)}
    (hf : ∀ m g, f m = some g → ∀ z : State, z.Follows still (g z)) : s.Follows still (s.takeFromSlice n sid f) := by
  unfold State.takeFromSlice
  split
  · next g hg =>
    obtain ⟨m, -, hm⟩ := Option.bind_eq_some_iff.1 hg
    exact (State.Follows.popToLink sid n s).trans (hf m g hm _)
  · exact .refl s

theorem State.Follows.takeFromController {m : ControllerMsg} {f : State → State} (hf : ∀ z : State, z.Follows still (f z)) :
    s.Follows still (s.takeFromController n m f) := by
  unfold State.takeFromController
  split
  · exact .trans (.updLink (.of_eq rfl rfl rfl rfl rfl rfl rfl)) (hf _)
  · exact .refl s

end

end Sys2Proof.Machine

/-!
Every event in the relation of the invariants: what the link units, the quiesce controller, the management unit, the slices, the memory
channel and the resets do.
-/

namespace Sys2Proof.Machine

section
variable {still : Prop} {s t : State} {n : Agent} {sid : SliceId}

/-! ## Messages of the request channel -/

theorem State.Follows.takeCause (n : Agent) (f : FaultRecord) (s : State) : s.Follows still (s.takeCause n f) := by
  unfold State.takeCause
  split
  · exact .trans (.updLink (.fence f _)) (.raiseAlert _ _)
  · split
    · exact .trans (.updLink (.countFault f _)) (.raiseAlert _ _)
    · exact .refl s

theorem State.Follows.welcome (n : Agent) (c : AgentClass) (s : State) : s.Follows still (s.welcome n c) := by
  refine .updLink (.trans (.trans ?_ (.pushControl _ _)) (.enter (by decide) _))
  exact .of_le le_rfl (Nat.zero_le _) (List.nil_sublist _) (fun _ => le_rfl) (fun h => .inr ⟨h, rfl⟩) rfl

theorem State.Follows.openSession (n : Agent) (m : HelloMsg) (s : State) : s.Follows still (s.openSession n m) := by
  unfold State.openSession
  split
  · exact .updLink (.pushControl _ _)
  · split
    · exact .updLink (.pushControl _ _)
    · split
      · exact .updLink (.pushControl _ _)
      · split
        · exact .updLink (.of_eq rfl rfl rfl rfl rfl rfl rfl)
        · exact .welcome n _ s

/-- The consecutive-failure count stays at its limit (R145). -/
theorem State.Follows.dataCheckFailed {f : FaultRecord} {retry : LinkUnit → LinkUnit} (hretry : ∀ u : LinkUnit, u.Follows (retry u)) (s : State) :
    s.Follows still (s.dataCheckFailed n f retry) := by
  have hcount : s.Follows still (s.updLink n fun u =>
      { u with dataCheckFailures := satInc u.dataCheckFailures, consecutive := min (u.consecutive + 1) Config.dataCheckLimit }) :=
    .updLink ⟨fun ⟨hr, _, hrest⟩ => ⟨hr, Nat.min_le_right _ _, hrest⟩, id⟩
  simp only [State.dataCheckFailed]
  split
  · exact hcount.trans (.takeCause n f _)
  · exact hcount.trans (.updLink (hretry _))

theorem State.Follows.dataCheckPassed (n : Agent) (s : State) : s.Follows still (s.dataCheckPassed n) :=
  .updLink (.of_le le_rfl (Nat.zero_le _) (.refl _) (fun _ => le_rfl) (fun h => .inr ⟨h, rfl⟩) rfl)

/-- What is routed for a message names the message's line. -/
theorem ReqMsg.routed_line {m : ReqMsg} {x : SliceMsg} (h : m.routed = some x) : x.line = m.line := by
  cases m <;> cases h <;> rfl

theorem State.Follows.routeTagged {m : ReqMsg} {tag : Tag} {line : LineAddr} (hline : m.line = some line) (s : State) :
    s.Follows still (s.routeTagged n m tag line) := by
  simp only [State.routeTagged]
  split
  · exact .takeCause n _ s
  · split
    · exact .updLink (.pushFinal _ _)
    · split
      · split
        · exact .takeCause n _ s
        · exact .updLink (.pushFinal _ _)
      · split
        · exact .refl s
        · next x hx =>
          refine .updLink (.trans (.setTag tag true _) (.route (fun l hl => ?_) _))
          rw [ReqMsg.routed_line hx, hline] at hl
          exact congrArg sliceOf (Option.some.inj hl).symm

theorem State.Follows.testMessage (n : Agent) (m : ReqMsg) (s : State) : s.Follows still (s.testMessage n m) := by
  simp only [State.testMessage]
  split
  · exact .takeCause n _ s
  · exact .takeCause n _ s
  · split
    · exact .takeCause n _ s
    · split
      · split
        · exact .updLink (.startDrain _)
        · exact .updLink (.discard _)
      · exact .updLink (.of_eq rfl rfl rfl rfl rfl rfl rfl)
      · next hline => exact .routeTagged hline s
      · exact .refl s

/-- A tag place is free where a tagged message is taken in a session or beside a held Hello (R136). -/
theorem LinkUnit.reservations_lt_of_canTake {u : LinkUnit} {m : ReqMsg} (h : u.canTake m = true) (htag : m.tag ≠ none)
    (hstate : u.state.session = true ∨ u.state = .offline ∧ u.heldHello ≠ none) : u.reservations < 16 := by
  have htag' : m.tag.isNone = false := Option.isNone_eq_false_iff.2 (Option.isSome_iff_ne_none.2 htag)
  obtain hs | ⟨ho, hh⟩ := hstate
  · have hplace : decide (u.reservations < Config.tagPlaces) = true := by simpa [LinkUnit.canTake, htag', hs, -decide_eq_true_eq] using h
    exact of_decide_eq_true hplace
  · have hplace : decide (u.reservations < Config.tagPlaces) = true := by
      simpa [LinkUnit.canTake, htag', ho, LinkState.session, Option.isSome_iff_ne_none.2 hh, -decide_eq_true_eq] using h
    exact of_decide_eq_true hplace

/-- A tag place is reserved (R136). -/
theorem LinkUnit.Follows.reserve {u : LinkUnit} (h : u.reservations < 16) : u.Follows { u with reservations := u.reservations + 1 } :=
  ⟨fun ⟨_, hrest⟩ => ⟨h, hrest⟩, id⟩

theorem State.Follows.takeInSession {m : ReqMsg} (hplace : m.tag ≠ none → s.links[n].reservations < 16) :
    s.Follows still (s.takeInSession n m) := by
  have hreserve : s.Follows still
      (if m.tag.isSome then s.updLink n (fun u => { u with reservations := u.reservations + 1 }) else s) := by
    split
    · next h => exact .updLink (.reserve (hplace (Option.isSome_iff_ne_none.1 h)))
    · exact .refl s
  simp only [State.takeInSession]
  refine hreserve.trans ?_
  generalize (if m.tag.isSome then s.updLink n (fun u => { u with reservations := u.reservations + 1 }) else s) = z
  split
  · exact .dataCheckFailed (fun u => .pushFinal _ u) _
  · exact (State.Follows.dataCheckPassed n _).trans (.testMessage n m _)
  · exact .testMessage n m _

theorem State.Follows.takeOffline {m : ReqMsg} (hplace : m.tag ≠ none → s.links[n].heldHello ≠ none → s.links[n].reservations < 16) :
    s.Follows still (s.takeOffline n m) := by
  simp only [State.takeOffline]
  split
  · split
    · exact .updLink (.discard _)
    · exact .openSession n _ s
  · split
    · next hheld htag =>
      have hplaces := hplace (by rw [htag]; exact Option.some_ne_none _) (by rw [hheld]; exact Option.some_ne_none _)
      exact .updLink (.trans (.reserve hplaces) (.pushFinal _ _))
    · exact .updLink (.discard _)

theorem State.Follows.takeMessage {m : ReqMsg} (h : s.links[n].canTake m = true) : s.Follows still (s.takeMessage n m) := by
  unfold State.takeMessage
  split
  · next hs => exact .takeInSession fun htag => LinkUnit.reservations_lt_of_canTake h htag (.inl hs)
  · split
    · next ho => exact .takeOffline fun htag hheld => LinkUnit.reservations_lt_of_canTake h htag (.inr ⟨ho, hheld⟩)
    · exact .updLink (.discard _)

/-- A FENCED link takes every message, so none waits there (R132). -/
theorem LinkUnit.canTake_of_fenced {u : LinkUnit} (h : u.state ∈ [LinkState.fencedSweeping, .fencedSwept]) (m : ReqMsg) :
    u.canTake m = true := by
  have hoffline : u.state ≠ .offline := fun e => by rw [e] at h; revert h; decide
  simp [LinkUnit.canTake, LinkState.not_session_of_fenced h, hoffline]

theorem State.Follows.requestChannelEvent (n : Agent) (src : Take ReqMsg) (isKind : ReqMsg → Bool) (s : State) :
    s.Follows still (s.requestChannelEvent n src isKind) := by
  simp only [State.requestChannelEvent]
  split
  · next m =>
    split
    · next h =>
      rw [Bool.and_eq_true] at h
      exact .takeMessage h.2
    · next h =>
      refine .updLink ⟨fun ⟨hr, hc, hn, hq, hf⟩ => ⟨hr, hc, hn, hq, fun hst => absurd ?_ h⟩, id⟩
      rw [Bool.and_eq_true]
      exact ⟨decide_eq_true (hf hst), LinkUnit.canTake_of_fenced hst m⟩
  · split
    · exact .refl s
    · next m rest hchannel =>
      split
      · next h =>
        rw [Bool.and_eq_true] at h
        have hpop : s.Follows still (s.updLink n fun u => { u with requestChannel := rest }) :=
          .updLink ⟨fun ⟨hr, hc, hn, hq, hf⟩ => ⟨hr, hc, hn, hq, fun hst => by
            rw [hf hst] at hchannel; cases hchannel⟩, id⟩
        refine hpop.trans (.takeMessage ?_)
        rw [State.updLink_self]
        exact h.2
      · exact .refl s

/-! ## Messages of the reply channel -/

theorem State.Follows.replyChannelEvent {f : State → State} (hf : s.Follows still (f s)) : s.Follows still (s.replyChannelEvent n f) := by
  unfold State.replyChannelEvent
  split
  · exact hf
  · exact .updLink (.discard _)

theorem State.Follows.takeDirty (n : Agent) (m : DirtyMsg) (s : State) : s.Follows still (s.takeDirty n m) := by
  unfold State.takeDirty
  split
  · exact (State.Follows.dataCheckPassed n s).trans (.updLink (.forward rfl _ _))
  · exact .dataCheckFailed (fun u => .queueReplyRetry _ u) s

theorem LinkUnit.Follows.grantAck (h : Handle) (u : LinkUnit) :
    u.Follows (LinkUnit.forward h (.grantAck h) { u with confirm := u.confirm.erase h }).settleDrain := by
  have herase : u.Follows { u with confirm := u.confirm.erase h } :=
    .of_le le_rfl le_rfl List.erase_sublist (fun _ => le_rfl) (fun h => .inr ⟨h, rfl⟩) rfl
  exact (herase.trans (.forward rfl h _)).trans (.settleDrain _)

/-- A message that fails the form test (R210). -/
theorem State.Follows.formTest {src : Take MalformedMsg} (h : execMessageFailingFormTest n src s = .next t) : s.Follows still t := by
  simp only [execMessageFailingFormTest] at h
  split at h
  · exact .messageEvent (.requestChannelEvent _ _ _ _) h
  · split at h
    · refine .messageEvent ?_ h
      split
      · exact .requestChannelEvent _ _ _ _
      · exact .replyChannelEvent (.takeCause _ _ _)
    · cases h

/-! ## The link unit's other events -/

theorem State.Follows.linkDown (n : Agent) (s : State) : execLinkDown n s = .next t → s.Follows still t := by
  refine .whileReleased ?_
  split
  · exact .takeCause n _ s
  · exact .takeCause n _ s
  · exact .takeCause n _ s
  · exact .updLink (.dropSession _)
  · exact .refl s
  · exact .refl s

theorem State.Follows.probeDelivered (n : Agent) (s : State) : execProbeDelivered n s = .next t → s.Follows still t := by
  refine .whileReleased (.updLink ?_)
  split
  · exact .of_eq rfl rfl rfl rfl rfl rfl rfl
  · exact .refl _

theorem State.Follows.finalResponseTaken (n : Agent) (sid : SliceId) (s : State) :
    execFinalResponseTaken n sid s = .next t → s.Follows still t := by
  refine .whileReleased (.takeFromSlice fun m g hg z => ?_)
  split at hg
  · cases hg
    refine .updLink ?_
    split
    · exact .takeResponse _ _
    · exact .countRetry _ _
  · cases hg

theorem State.Follows.probeTaken (n : Agent) (sid : SliceId) (s : State) : execProbeTaken n sid s = .next t → s.Follows still t := by
  refine .whileReleased (.takeFromSlice fun m g hg z => ?_)
  split at hg
  · cases hg
    refine .updLink ?_
    split
    · exact .of_eq rfl rfl rfl rfl rfl rfl rfl
    · exact .refl _
  · cases hg

theorem State.Follows.timeoutReport (n : Agent) (sid : SliceId) (s : State) : execTimeoutReport n sid s = .next t → s.Follows still t := by
  refine .whileReleased (.takeFromSlice fun m g hg z => ?_)
  split at hg
  · cases hg; exact .takeCause n _ z
  · cases hg

theorem State.Follows.faultReport (n : Agent) (sid : SliceId) (s : State) : execFaultReport n sid s = .next t → s.Follows still t := by
  refine .whileReleased (.takeFromSlice fun m g hg z => ?_)
  split at hg
  · cases hg; exact .takeCause n _ z
  · cases hg

theorem State.Follows.drainCompletionReport (n : Agent) (sid : SliceId) (s : State) :
    execDrainCompletionReport n sid s = .next t → s.Follows still t := by
  refine .whileReleased (.takeFromSlice fun m g hg z => ?_)
  split at hg
  · cases hg
    refine .updLink ?_
    split
    · refine .trans (u' := { z.links[n] with slicesReported := SliceSet.insert z.links[n].slicesReported sid }) ?_ (.farewell _)
      exact .of_eq rfl rfl rfl rfl rfl rfl rfl
    · exact .refl _
  · cases hg

theorem State.Follows.fenceCompletionReport (n : Agent) (sid : SliceId) (s : State) :
    execFenceCompletionReport n sid s = .next t → s.Follows still t := by
  refine .whileReleased (.takeFromSlice fun m g hg z => ?_)
  split at hg
  · cases hg; exact .updLink (.fenceReported _ _)
  · cases hg

theorem State.Follows.answerHeldHello (n : Agent) (s : State) : s.Follows still (s.answerHeldHello n) := by
  unfold State.answerHeldHello
  split
  · exact .refl s
  · split
    · exact .welcome n _ s
    · refine .updLink (.trans (u' := { s.links[n] with heldHello := none }) ?_ (.pushControl _ _))
      exact .of_eq rfl rfl rfl rfl rfl rfl rfl

theorem State.Follows.memoryClearReport (n : Agent) (s : State) : execMemoryClearReport n s = .next t → s.Follows still t := by
  refine .whileReleased ?_
  split
  · exact .trans (.updLink (.of_eq rfl rfl rfl rfl rfl rfl rfl)) (.answerHeldHello n _)
  · exact .refl s

/-! ## Slices -/

theorem State.Follows.requestArrival (sid : SliceId) (n : Agent) (s : State) : execRequestArrival sid n s = .next t → s.Follows still t := by
  refine .whileReleased (.takeFromLink fun m g hg env x => ?_)
  split at hg
  · cases hg
    refine Slice.Acts.requestArrives (enters := fun l => SliceMsg.line (.request _ _ _ _) = some l) ?_ x
    rfl
  · cases hg

theorem State.Follows.returnArrival (sid : SliceId) (n : Agent) (s : State) : execReturnArrival sid n s = .next t → s.Follows still t := by
  refine .whileReleased (.takeFromLink fun m g hg env x => ?_)
  split at hg
  · split at hg
    · cases hg
    · cases hg; exact .returnArrives _ _ _ _ x
  · cases hg

theorem State.Follows.replyGone (sid : SliceId) (n : Agent) (s : State) : execReplyGone sid n s = .next t → s.Follows still t := by
  refine .whileReleased (.takeFromLink fun m g hg env x => ?_)
  split at hg
  · cases hg; exact .replyArrives _ _ _ _ x
  · cases hg

theorem State.Follows.replyClean (sid : SliceId) (n : Agent) (s : State) : execReplyClean sid n s = .next t → s.Follows still t := by
  refine .whileReleased (.takeFromLink fun m g hg env x => ?_)
  split at hg
  · cases hg; exact .replyArrives _ _ _ _ x
  · cases hg

theorem State.Follows.replyDirty (sid : SliceId) (n : Agent) (s : State) : execReplyDirty sid n s = .next t → s.Follows still t := by
  refine .whileReleased (.takeFromLink fun m g hg env x => ?_)
  split at hg
  · cases hg; exact .replyArrives _ _ _ _ x
  · cases hg

theorem State.Follows.grantAckArrival (sid : SliceId) (n : Agent) (s : State) : execGrantAckArrival sid n s = .next t → s.Follows still t := by
  refine .whileReleased (.takeFromLink fun m g hg env x => ?_)
  split at hg
  · cases hg; exact .grantAckArrives _ _ x
  · cases hg

theorem State.Follows.releaseNotice (sid : SliceId) (n : Agent) (s : State) : execReleaseNotice sid n s = .next t → s.Follows still t := by
  refine .whileReleased (.takeFromLink fun m g hg env x => ?_)
  split at hg
  · cases hg; exact .ofPaths rfl rfl rfl rfl rfl
  · cases hg

theorem State.Follows.memoryReadCompletion (line : LineAddr) (s : State) : execMemoryReadCompletion line s = .next t → s.Follows still t := by
  refine .whileReleased ?_
  split
  · exact .refl s
  · exact .sliceEventInner (.updMem id rfl) fun env x _ => .readCompletes _ x

theorem State.Follows.sweepStartNotice (sid : SliceId) (s : State) : execSweepStartNotice sid s = .next t → s.Follows still t := by
  refine .whileReleased (.takeCommand fun m g hg env x => ?_)
  split at hg
  · cases hg; exact .ofPaths rfl rfl rfl rfl rfl
  · cases hg

theorem State.Follows.withdrawalNotice (sid : SliceId) (s : State) : execWithdrawalNotice sid s = .next t → s.Follows still t := by
  refine .whileReleased (.takeCommand fun m g hg env x => ?_)
  split at hg
  · cases hg; exact .withdraw x
  · cases hg

theorem State.Follows.inspectLookup (sid : SliceId) (s : State) : execInspectLookup sid s = .next t → s.Follows still t := by
  refine .whileReleased (.takeCommand fun m g hg env x => ?_)
  split at hg
  · cases hg; exact .ofPaths rfl rfl rfl rfl rfl
  · cases hg

theorem State.Follows.scrubArrival (sid : SliceId) (s : State) : execScrubArrival sid s = .next t → s.Follows still t := by
  refine .whileReleased (.takeCommand fun m g hg env x => ?_)
  split at hg
  · next l =>
    cases hg
    exact Slice.Acts.scrubArrives (enters := fun k => CommandMsg.scrub l = .scrub k) rfl x
  · cases hg

/-! ## The memory channel -/

theorem State.Follows.submit {sid : SliceId} (hqueue : s.mem.queue.length < 64) : s.Follows still (s.submit sid) := by
  unfold State.submit
  split
  · exact .refl s
  · next o os hsub =>
    have hcut : s.Follows still (s.updSlice sid fun x => { x with submission := os }) :=
      .acts (enters := fun _ => False) (.refl s) (fun _ _ h => h.elim)
        (Slice.Act.submitted os (by rw [hsub]; exact List.subset_cons_self o os)).acts
    refine .sliceEventInner (hcut.trans (.updMem (fun _ => ?_) rfl)) fun _ x _ => .refl x
    simpa using hqueue

theorem State.Follows.operationSubmitted (s : State) : execOperationSubmitted s = .next t → s.Follows still t := by
  refine .whileReleased ?_
  split
  · split
    · next h => exact .submit h
    · exact .refl s
  · exact .refl s

/-- The channel performs an operation only with the clear over. -/
theorem State.Follows.perform {line : LineAddr} {f : MemOp → Option (State → State)}
    (hf : ∀ op g, f op = some g → ∀ z : State, z.mem.dram.clearRunning = false → z.Follows still (g z)) : s.Follows still (s.perform line f) := by
  unfold State.perform
  split
  · exact .refl s
  · next hclear =>
    split
    · exact .refl s
    · next q qs hq =>
      split
      · exact .refl s
      · next g hg =>
        refine .trans (.updMem (fun h => ?_) rfl) (hf q.op g hg _ (by simpa using hclear))
        obtain ⟨-, -, hsub⟩ := takeFirst_some hq
        exact hsub.length_le.trans h

theorem State.Follows.storeLine (hstill : ¬still) (hclear : s.mem.dram.clearRunning = false) (l : LineAddr) (d : Poisoned) :
    s.Follows still (s.storeLine l d) := by
  refine .updDram rfl (Memory.wf_writeLine _ _ _ _) (fun h => ?_) hstill
  rw [Dram.writeLine_clearRunning, hclear] at h
  cases h

theorem State.Follows.checkLine (hstill : ¬still) (hclear : s.mem.dram.clearRunning = false) (l : LineAddr) (e : EccOutcome) :
    s.Follows still (s.checkLine l e) := by
  have hrepair : s.Follows still (s.updMem fun m => m.repair l e) := by
    cases e with
    | good => exact .updMem id rfl
    | corrected => exact .updMem id rfl
    | uncorrectable asRead =>
      refine .updDram rfl (Memory.wf_writeLine _ _ _ _) (fun h => ?_) hstill
      simp only [MemChannel.repair, Dram.writeLine_clearRunning, hclear] at h
      cases h
  simp only [State.checkLine]
  split
  · exact hrepair.trans (.raiseAlert _ _)
  · exact hrepair

theorem State.checkLine_clearRunning (s : State) (l : LineAddr) (e : EccOutcome) :
    (s.checkLine l e).mem.dram.clearRunning = s.mem.dram.clearRunning := by
  simp only [State.checkLine]
  split <;> cases e <;> simp [MemChannel.repair, Dram.writeLine_clearRunning]

theorem State.Follows.read (hstill : ¬still) (line : LineAddr) (e : EccOutcome) (s : State) :
    execRead line e s = .next t → s.Follows still t := by
  refine .whileReleased (.perform fun op g hg z hclear => ?_)
  split at hg
  · cases hg
    exact (State.Follows.checkLine hstill hclear _ _).trans (.updMem id rfl)
  · cases hg

theorem State.Follows.fullWrite (hstill : ¬still) (line : LineAddr) (s : State) :
    execFullWrite line s = .next t → s.Follows still t := by
  refine .whileReleased (.perform fun op g hg z hclear => ?_)
  split at hg
  · cases hg; exact .storeLine hstill hclear _ _
  · cases hg

theorem State.Follows.mergeWrite (hstill : ¬still) (line : LineAddr) (e : EccOutcome) (s : State) :
    execMergeWrite line e s = .next t → s.Follows still t := by
  refine .whileReleased (.perform fun op g hg z hclear => ?_)
  split at hg
  · cases hg
    simp only [State.performMerge]
    split
    · exact .storeLine hstill hclear _ _
    · exact (State.Follows.checkLine hstill hclear _ _).trans (.storeLine hstill ((z.checkLine_clearRunning _ _).trans hclear) _ _)
  · cases hg

theorem State.Follows.poisonWrite (hstill : ¬still) (line : LineAddr) (e : EccOutcome) (s : State) :
    execPoisonWrite line e s = .next t → s.Follows still t := by
  refine .whileReleased (.perform fun op g hg z hclear => ?_)
  split at hg
  · cases hg
    exact (State.Follows.checkLine hstill hclear _ _).trans (.storeLine hstill ((z.checkLine_clearRunning _ _).trans hclear) _ _)
  · cases hg

theorem State.Follows.completeClear (hstill : ¬still) (s : State) : s.Follows still s.completeClear := by
  have hclear : s.Follows still (s.updMem fun m => { m with dram := m.dram.clearAll s.poolLines }) :=
    .updDram rfl (Memory.wf_clearAll _ _) (fun h => nomatch h) hstill
  have hreport (z : State) : z.Follows still { z with links := z.links.map LinkUnit.reportClear } := by
    refine .ofLinks (fun n => ?_) rfl rfl rfl
    simp only [Fin.getElem_fin, Vector.getElem_map]
    exact .of_eq rfl rfl rfl rfl rfl rfl rfl
  have hmgmt (z : State) : z.Follows still (z.updMgmt fun m => { m with clearReport := true }) := .updMgmt_same rfl rfl rfl
  exact (hclear.trans (hreport _)).trans (hmgmt _)

theorem State.Follows.memoryClearComplete (hstill : ¬still) (s : State) : execMemoryClearComplete s = .next t → s.Follows still t := by
  refine .whileReleased ?_
  split
  · exact .completeClear hstill s
  · exact .refl s

theorem State.Follows.memoryReady (s : State) : execMemoryReady s = .next t → s.Follows still t := by
  refine .whileReleased ?_
  split
  · exact .updMgmt_same rfl rfl rfl
  · exact .refl s

/-! ## The quiesce controller -/

/-- A message other than a Scrub on every command path. -/
theorem State.Follows.commandAll {x : CommandMsg} (hx : ∀ l, x ≠ .scrub l) {f : Mgmt → Mgmt} (hresponse : (f s.mgmt).responseTimeout = s.mgmt.responseTimeout)
    (hflush : (f s.mgmt).flushTimeout = s.mgmt.flushTimeout) (hpath : (f s.mgmt).cmdPath = s.mgmt.cmdPath) :
    s.Follows still (s.updMgmt fun m => (f m).commandAll x) := by
  refine .updMgmt (by rw [Mgmt.commandAll, hresponse]; exact id) (by rw [Mgmt.commandAll, hflush]; exact id) fun sid l h => .inl ?_
  simp only [Mgmt.commandAll, hpath, Fin.getElem_fin, Vector.getElem_map, List.mem_append, List.mem_singleton] at h
  obtain h | h := h
  · exact h
  · exact absurd h.symm (hx l)

theorem State.Follows.enterSweeping (s : State) : s.Follows still (s.updMgmt Mgmt.enterSweeping) := by
  have h : s.Follows still (s.updMgmt fun m => ((fun m : Mgmt => { m with quiesce :=
      { m.quiesce with state := .sweeping, flushPending := 0#8, timer := none, reported := 0#4 } }) m).commandAll (.sweepStart s.mgmt.quiesce.number)) :=
    .commandAll (by simp) rfl rfl rfl
  exact h

theorem State.Follows.leaveFlush (n : Agent) (s : State) : s.Follows still (s.updMgmt (Mgmt.leaveFlush n)) := by
  by_cases h : AgentSet.erase s.mgmt.quiesce.flushPending n = 0#8
  · rw [State.updMgmt_congr (g := Mgmt.enterSweeping) (by simp [Mgmt.leaveFlush, h])]
    exact .enterSweeping s
  · refine .updMgmt_same ?_ ?_ ?_ <;> simp [Mgmt.leaveFlush, h]

theorem State.Follows.tellAgents (x : ControllerMsg) (a : AgentSet) (s : State) : s.Follows still (s.tellAgents x a) :=
  .foldl (fun _ _ => .updLink (.of_eq rfl rfl rfl rfl rfl rfl rfl)) _ s

theorem State.Follows.quiesceFlushDone (n : Agent) (s : State) : execQuiesceFlushDone n s = .next t → s.Follows still t := by
  refine .whileReleased ?_
  split
  · exact .refl s
  · next k _ =>
    refine State.Follows.trans (t := s.updLink n fun u => { u with flushDones := k }) (.updLink (.of_eq rfl rfl rfl rfl rfl rfl rfl)) ?_
    dsimp only
    split
    · exact .leaveFlush n _
    · exact .updLink (.of_eq rfl rfl rfl rfl rfl rfl rfl)

theorem State.Follows.flushReport (n : Agent) (st : LinkState) (s : State) : s.Follows still (s.updMgmt (Mgmt.flushReport n st)) := by
  by_cases h : ((st = .fencedSweeping || st = .offline) && s.mgmt.flushAwaits n) = true
  · rw [State.updMgmt_congr (g := Mgmt.leaveFlush n) (by rw [Mgmt.flushReport, if_pos h])]
    exact .leaveFlush n s
  · refine .updMgmt_same ?_ ?_ ?_ <;> rw [Mgmt.flushReport, if_neg h]

theorem State.Follows.linkStateReport (n : Agent) (s : State) : execLinkStateReport n s = .next t → s.Follows still t := by
  refine .whileReleased ?_
  split
  · exact .refl s
  · next r rs _ =>
    have hlink : s.Follows still (s.updLink n fun u => { u with reports := rs }) := .updLink (.of_eq rfl rfl rfl rfl rfl rfl rfl)
    have hcopy (z : State) : z.Follows still (z.updMgmt fun m => { m with linkCopy := m.linkCopy.set n r }) := .updMgmt_same rfl rfl rfl
    exact ((hlink.trans (hcopy _)).trans (.raiseAlert _ _)).trans (.flushReport n _ _)

theorem State.Follows.flushTimerExpiry (s : State) : execFlushTimerExpiry s = .next t → s.Follows still t := by
  refine .whileReleased ?_
  split
  · exact (State.Follows.tellAgents _ _ s).trans (.enterSweeping _)
  · exact .refl s

theorem State.Follows.quiesceReported (sid : SliceId) (k : BitVec 8) (s : State) : s.Follows still (s.quiesceReported sid k) := by
  simp only [State.quiesceReported]
  split
  · split
    · exact .trans (.updMgmt_same rfl rfl rfl) (.raiseAlert _ _)
    · exact .updMgmt_same rfl rfl rfl
  · exact .refl s

/-- What no invariant of a slice speaks of. -/
theorem State.Follows.updPaths {f : Slice → Slice} (hdir : (f s.slices[sid]).dir = s.slices[sid].dir)
    (hrec : (f s.slices[sid]).records = s.slices[sid].records) (hqueue : (f s.slices[sid]).waitQueue = s.slices[sid].waitQueue)
    (hsub : (f s.slices[sid]).submission = s.slices[sid].submission) (heng : (f s.slices[sid]).engine = s.slices[sid].engine) :
    s.Follows still (s.updSlice sid f) :=
  .acts (enters := fun _ => False) (.refl s) (fun _ _ h => h.elim) (.ofPaths hdir hrec hqueue hsub heng)

theorem State.Follows.quiesceCompletionReport (sid : SliceId) (s : State) : execQuiesceCompletionReport sid s = .next t → s.Follows still t := by
  refine .whileReleased ?_
  split
  · exact .refl s
  · next k ks _ =>
    have htaken : s.Follows still (s.updSlice sid fun x => { x with toController := ks }) :=
      .updPaths rfl rfl rfl rfl rfl
    exact htaken.trans (.quiesceReported sid k _)

/-! ## The command engine -/

theorem State.Follows.commandWrite {code : BitVec 4} {arg : BitVec 28} {f : State → State} (hf : ∀ z : State, z.Follows still (f z)) :
    s.Follows still (s.commandWrite code arg f) := by
  simp only [State.commandWrite]
  refine (State.Follows.setOffset offCommand s).trans ?_
  split
  · exact .updMgmt_same rfl rfl rfl
  · exact .trans (.updMgmt_same rfl rfl rfl) (hf _)

theorem State.Follows.completeCommand (st : CommandStatus) (r : Option InspectResult) (s : State) : s.Follows still (s.completeCommand st r) :=
  .trans (.updMgmt_same rfl rfl rfl) (.raiseAlert _ _)

theorem State.Follows.linkOutcome (n : Agent) (st : CommandStatus) (s : State) : s.Follows still (s.linkOutcome n st) :=
  .updLink (.of_eq rfl rfl rfl rfl rfl rfl rfl)

theorem State.Follows.detachAt (n : Agent) (s : State) : s.Follows still (s.detachAt n) := by
  unfold State.detachAt
  split
  · exact .trans (.updLink (.startDrain _)) (.linkOutcome n _ _)
  · exact .linkOutcome n _ s

theorem State.Follows.fenceAt (n : Agent) (s : State) : s.Follows still (s.fenceAt n) := by
  unfold State.fenceAt
  split
  · exact (State.Follows.takeCause n _ s).trans (.linkOutcome n _ _)
  · exact .linkOutcome n _ s

theorem State.Follows.releaseAt (n : Agent) (s : State) : s.Follows still (s.releaseAt n) := by
  unfold State.releaseAt
  split
  · exact .trans (.updLink (.releaseFence _)) (.linkOutcome n _ _)
  · exact .linkOutcome n _ s

theorem State.Follows.clearFaultAt (n : Agent) (s : State) : s.Follows still (s.clearFaultAt n) :=
  .trans (.updLink (.of_eq rfl rfl rfl rfl rfl rfl rfl)) (.linkOutcome n _ _)

theorem State.Follows.startQuiesce (s : State) : s.Follows still s.startQuiesce := by
  simp only [State.startQuiesce]
  refine .trans (.updMgmt_same (f := fun m => { m with quiesce :=
    { state := .flushing
      flushPending := s.mgmt.flushSet
      timer := some (s.now + 100 * m.flushTimeout.toNat)
      number := m.quiesce.number + 1#8
      reported := 0#4
      outcome := .none } }) rfl rfl rfl) ?_
  split
  · exact .enterSweeping _
  · exact .tellAgents _ _ _

theorem State.Follows.quiesceCommand (s : State) : s.Follows still s.quiesceCommand := by
  unfold State.quiesceCommand
  split
  · exact (State.Follows.startQuiesce s).trans (.completeCommand _ _ _)
  · exact .completeCommand _ _ s

theorem State.Follows.abortQuiesce (s : State) : s.Follows still s.abortQuiesce := by
  have hwithdraw : s.Follows still
      (if s.mgmt.quiesce.state = .sweeping then s.updMgmt (Mgmt.commandAll .withdrawal) else s) := by
    split
    · exact .commandAll (f := id) (by simp) rfl rfl rfl
    · exact .refl s
  simp only [State.abortQuiesce]
  exact (hwithdraw.trans (.updMgmt_same rfl rfl rfl)).trans (.raiseAlert _ _)

theorem State.Follows.resumeCommand (s : State) : s.Follows still s.resumeCommand := by
  unfold State.resumeCommand
  split
  · exact .completeCommand _ _ s
  · exact .trans (.updMgmt_same rfl rfl rfl) (.completeCommand _ _ _)
  · exact (State.Follows.abortQuiesce s).trans (.completeCommand _ _ _)
  · exact (State.Follows.abortQuiesce s).trans (.completeCommand _ _ _)

/-- A command for a line goes to the slice of the line (R204, R205). -/
theorem State.Follows.lineCommand {x : CommandMsg} {line : LineAddr} (hx : ∀ l, x = .scrub l → l = line) (s : State) :
    s.Follows still (s.lineCommand x line) := by
  unfold State.lineCommand
  split
  · refine .updMgmt id id fun sid l h => ?_
    by_cases hs : sid = sliceOf line
    · subst hs
      simp only [Fin.getElem_fin, Vector.getElem_set_self, List.mem_append, List.mem_singleton] at h
      exact h.imp id fun h => congrArg sliceOf (hx l h.symm)
    · have hne : (sliceOf line).val ≠ sid.val := fun e => hs (Fin.ext e.symm)
      exact .inl (by simpa only [Fin.getElem_fin, Vector.getElem_set_ne _ _ hne] using h)
  · exact .completeCommand _ _ s

theorem State.Follows.undefinedCommandCode {code : BitVec 4} {arg : BitVec 28} (h : execUndefinedCommandCode code arg s = .next t) :
    s.Follows still t := by
  unfold execUndefinedCommandCode at h
  split at h
  · cases h
  · exact .whileReleased (.commandWrite fun z => .completeCommand _ _ z) h

theorem State.Follows.commandOutcome (s : State) : execCommandOutcome s = .next t → s.Follows still t := by
  refine .whileReleased ?_
  split
  · exact .trans (.updLink (.of_eq rfl rfl rfl rfl rfl rfl rfl)) (.completeCommand _ _ _)
  · split
    · next sid o os _ =>
      have htaken : s.Follows still (s.updSlice sid fun x => { x with toEngine := os }) :=
        .updPaths rfl rfl rfl rfl rfl
      exact htaken.trans (.completeCommand _ _ _)
    · exact .refl s

/-- A timeout of 0 is not taken (R199). -/
theorem State.Follows.writeConfig (v : BitVec 32) (s : State) : s.Follows still (s.updMgmt (Mgmt.writeConfig v)) := by
  refine .updMgmt (fun h => ?_) (fun h => ?_) fun _ _ h => .inl h
  · simp only [Mgmt.writeConfig]
    split
    · exact h
    · assumption
  · simp only [Mgmt.writeConfig]
    split
    · exact h
    · assumption

theorem State.Follows.configurationWrite {off : BitVec 8} {v : BitVec 32} (h : execConfigurationWrite off v s = .next t) :
    s.Follows still t := by
  unfold execConfigurationWrite at h
  split at h
  · exact .whileReleased ((State.Follows.setOffset _ s).trans (.writeConfig v _)) h
  · split at h
    · exact .whileReleased ((State.Follows.setOffset _ s).trans (.updMgmt_same rfl rfl rfl)) h
    · cases h

theorem State.Follows.alertStatusWrite {v : BitVec 32} (h : execAlertStatusWrite v s = .next t) : s.Follows still t :=
  .whileReleased ((State.Follows.setOffset _ s).trans (.updMgmt_same rfl rfl rfl)) h

theorem State.Follows.shortWrite {off : BitVec 8} {data : List Byte} (h : execShortWrite off data s = .next t) : s.Follows still t := by
  unfold execShortWrite at h
  split at h
  · exact .whileReleased (.setOffset _ s) h
  · cases h

theorem State.Follows.registerWriteNoEffect {off : BitVec 8} {v : BitVec 32} (h : execRegisterWriteNoEffect off v s = .next t) :
    s.Follows still t := by
  unfold execRegisterWriteNoEffect at h
  split at h
  · exact .whileReleased (.setOffset _ s) h
  · cases h

end

end Sys2Proof.Machine

/-!
Every step carries every invariant over (R3, R6 to R8, R13, R29, R136, R173, R183; log 11), and only the memory channel's own events, the
clear and power-on reset change the DRAM (R172).
-/

namespace Sys2Proof.Machine

section
variable {still : Prop} {s t : State}

/-! ## The resets -/

theorem Slice.bounded_atReset (x : Slice) : x.atReset.bounded := ⟨Nat.zero_le _, by simp [Slice.atReset, Slice.initial]⟩

theorem Slice.atReset_record (x : Slice) (i : RecIdx) : x.atReset.records[i] = Record.free := by simp [Slice.atReset, Slice.initial]

theorem Slice.atReset_getSet (x : Slice) (p : Nat) : x.atReset.getSet p = DirSet.empty := rfl

theorem Slice.atReset_way (x : Slice) (p : Nat) (w : WayIdx) : (x.atReset.getSet p).ways[w] = .empty := by
  simp [Slice.atReset_getSet, DirSet.empty]

theorem Slice.soleHolders_atReset (x : Slice) : x.atReset.soleHolders := fun _ i _ hi _ => absurd (by rw [x.atReset_record]; rfl) hi.1

theorem Slice.freeRecordsIdle_atReset (x : Slice) : x.atReset.freeRecordsIdle := fun _ _ => rfl

theorem Slice.linesAtHome_atReset (sid : SliceId) (x : Slice) : x.atReset.linesAtHome sid :=
  ⟨fun i hi => absurd (by rw [x.atReset_record]; rfl) hi, List.forall_mem_nil _, List.forall_mem_nil _⟩

theorem Slice.directoryConsistent_atReset (sid : SliceId) (x : Slice) : x.atReset.directoryConsistent sid := by
  refine ⟨rfl, fun p v w t hv => ?_, fun p => ?_, fun p w t h hw => ?_, fun i v hi => ?_, fun p w t a hw => ?_, fun i a ha => ?_⟩
  · rw [x.atReset_way] at hv
    exact absurd hv (Way.not_carries_empty t)
  · refine ⟨List.nodup_nil, fun w => ⟨fun h => (nomatch h), fun ⟨t, e, h⟩ => ?_⟩⟩
    rw [x.atReset_way] at h
    cases h
  · rw [x.atReset_way] at hw; cases hw
  · rw [x.atReset_record] at hi; exact absurd rfl hi
  · rw [x.atReset_way] at hw; cases hw
  · rw [x.atReset_record] at ha; cases ha

/-- A reset of either kind: what it makes of the blocks. -/
theorem State.Follows.ofReset (hlinks : ∀ n : Agent, s.links[n].Follows t.links[n]) (hslices : ∀ sid : SliceId, t.slices[sid] = s.slices[sid].atReset)
    (hqueue : t.mem.queue = []) (hresponse : t.mgmt.responseTimeout ≠ 0#8) (hflush : t.mgmt.flushTimeout ≠ 0#8)
    (hpath : t.mgmt.cmdPath = Vector.replicate 4 []) (hwf : s.memoryCanonical → t.memoryCanonical)
    (hclear : s.clearStoresNothing → t.clearStoresNothing) (hdram : still → t.mem.dram = s.mem.dram) : s.Follows still t where
  bounded := fun ⟨hl, _⟩ => ⟨fun n => (hlinks n).bounded (hl n), fun sid => hslices sid ▸ Slice.bounded_atReset _,
    by rw [hqueue]; exact Nat.zero_le _, hresponse, hflush⟩
  soleHolders _ sid := hslices sid ▸ Slice.soleHolders_atReset _
  freeRecordsIdle _ sid := hslices sid ▸ Slice.freeRecordsIdle_atReset _
  linesAtHome h := by
    rw [State.linesAtHome_iff] at h ⊢
    obtain ⟨-, hl, -⟩ := h
    refine ⟨fun sid => hslices sid ▸ Slice.linesAtHome_atReset _ _, fun n => (hlinks n).linesAtHome (hl n), fun sid l h => ?_⟩
    simp [hpath] at h
  directoryConsistent _ _ _ sid := hslices sid ▸ Slice.directoryConsistent_atReset _ _
  memoryCanonical := hwf
  clearStoresNothing := hclear
  dram := hdram

theorem LinkUnit.Follows.initial (u : LinkUnit) : u.Follows LinkUnit.initial :=
  ⟨fun _ => LinkUnit.bounded_initial, fun _ => LinkUnit.linesAtHome_initial⟩

theorem State.Follows.powerOnReset (hstill : ¬still) (s : State) : s.Follows still s.powerOnReset :=
  .ofReset (fun n => by simp only [State.powerOnReset, Fin.getElem_fin, Vector.getElem_replicate]; exact .initial _)
    (fun sid => by simp [State.powerOnReset]) rfl (by decide : 20#8 ≠ 0#8) (by decide : 20#8 ≠ 0#8) rfl (fun _ => Memory.wf_powerOn _)
    (fun _ _ => ⟨rfl, rfl, rfl⟩) fun h => absurd h hstill

theorem State.Follows.hardReset (s : State) : s.Follows still s.hardReset :=
  .ofReset (fun n => by simp only [State.hardReset, Fin.getElem_fin, Vector.getElem_map]; exact .hardReset _)
    (fun sid => by simp [State.hardReset]) rfl (by decide : 20#8 ≠ 0#8) (by decide : 20#8 ≠ 0#8) rfl id id fun _ => rfl

theorem State.Follows.release (msize : Bool) (addr : BitVec 2) (s : State) : s.Follows still (s.release msize addr) := .frame rfl rfl rfl rfl

theorem State.Follows.hardResetRelease (hstill : ¬still) {msize : Bool} {addr : BitVec 2} (h : execHardResetRelease msize addr s = .next t) :
    s.Follows still t := by
  cases h
  split
  · refine (State.Follows.release msize addr s).trans ?_
    unfold State.finishShortClear
    split
    · exact .completeClear hstill _
    · exact .refl _
  · exact .refl s

theorem State.Follows.powerOnResetRelease {msize : Bool} {addr : BitVec 2} (h : execPowerOnResetRelease msize addr s = .next t) :
    s.Follows still t := by
  cases h
  split
  · exact .release msize addr s
  · exact .refl s

theorem State.Follows.execHardReset (h : Machine.execHardReset s = .next t) : s.Follows still t := by
  cases h
  split
  · exact .refl s
  · exact .hardReset s

end

/-! ## Every command -/

/-- The command is none of the memory channel's operations, the clear's completion, and the resets that clear or forget the DRAM. -/
def leavesDram (c : Instr) : Prop :=
  (∀ l e, c ≠ .read l e) ∧ (∀ l, c ≠ .fullWrite l) ∧ (∀ l e, c ≠ .mergeWrite l e) ∧ (∀ l e, c ≠ .poisonWrite l e)
    ∧ c ≠ .memoryClearComplete ∧ c ≠ .powerOnReset ∧ ∀ m a, c ≠ .hardResetRelease m a

/-- Every command carries every invariant over, and the DRAM as well, where it is none of those that act on it. -/
theorem exec_follows (c : Instr) (s t : State) (h : exec c s = .next t) : s.Follows (leavesDram c) t := by
  cases c with
  | hello | depart | flushDone | fetchShared | fetchOwned | promote | snapshot | maskedWrite | returnDirty | returnClean =>
    exact .messageEvent (.requestChannelEvent _ _ _ s) h
  | gone | clean => exact .messageEvent (.replyChannelEvent (.updLink (.forward rfl _ _))) h
  | dirty n m => exact .messageEvent (.replyChannelEvent (.takeDirty n m s)) h
  | grantAck n k => exact .messageEvent (.replyChannelEvent (.updLink (.grantAck k _))) h
  | messageFailingFormTest => exact .formTest h
  | linkDown n => exact .linkDown n s h
  | responseDeparts n => exact .whileReleased (f := fun s => s.updLink n LinkUnit.depart) (.updLink (.depart _)) h
  | probeDelivered n => exact .probeDelivered n s h
  | finalResponseTaken n sid => exact .finalResponseTaken n sid s h
  | probeTaken n sid => exact .probeTaken n sid s h
  | flushRequest n => exact .whileReleased (.takeFromController fun _ => .updLink (.queueFlush _)) h
  | timeoutReport n sid => exact .timeoutReport n sid s h
  | faultReport n sid => exact .faultReport n sid s h
  | flushTimeoutReport n => exact .whileReleased (.takeFromController fun z => .takeCause n _ z) h
  | drainCompletionReport n sid => exact .drainCompletionReport n sid s h
  | fenceCompletionReport n sid => exact .fenceCompletionReport n sid s h
  | discardNotice n => exact .whileReleased (.takeFromController fun _ => .updLink (.discard _)) h
  | memoryClearReport n => exact .memoryClearReport n s h
  | requestArrival sid n => exact .requestArrival sid n s h
  | returnArrival sid n => exact .returnArrival sid n s h
  | replyGone sid n => exact .replyGone sid n s h
  | replyClean sid n => exact .replyClean sid n s h
  | replyDirty sid n => exact .replyDirty sid n s h
  | grantAckArrival sid n => exact .grantAckArrival sid n s h
  | responseDeadlineExpiry k => exact .whileReleased (.sliceEventInner (.refl s) fun _ x _ => .expire _ x) h
  | memoryReadCompletion line => exact .memoryReadCompletion line s h
  | operationSubmitted => exact .operationSubmitted s h
  | read line e => exact .read (fun hc => hc.1 _ _ rfl) line e s h
  | fullWrite line => exact .fullWrite (fun ⟨_, hc, _⟩ => hc _ rfl) line s h
  | mergeWrite line e => exact .mergeWrite (fun ⟨_, _, hc, _⟩ => hc _ _ rfl) line e s h
  | poisonWrite line e => exact .poisonWrite (fun ⟨_, _, _, hc, _⟩ => hc _ _ rfl) line e s h
  | memoryClearComplete => exact .memoryClearComplete (fun ⟨_, _, _, _, hc, _⟩ => hc rfl) s h
  | memoryReady => exact .memoryReady s h
  | fenceNotice sid n => exact .whileReleased (.takeNotice fun _ x => .fenceNotice n x) h
  | drainNotice sid n => exact .whileReleased (.takeNotice fun _ x => .drainNotice n x) h
  | drainSweepNotice sid n => exact .whileReleased (.takeNotice fun _ x => .joinJob _ x) h
  | releaseNotice sid n => exact .releaseNotice sid n s h
  | sweepStartNotice sid => exact .sweepStartNotice sid s h
  | withdrawalNotice sid => exact .withdrawalNotice sid s h
  | sweepArrival sid => exact .whileReleased (.sliceEventInner (.refl s) fun _ x _ => .arriveAtSet x) h
  | inspectLookup sid => exact .inspectLookup sid s h
  | scrubArrival sid => exact .scrubArrival sid s h
  | quiesceFlushDone n => exact .quiesceFlushDone n s h
  | linkStateReport n => exact .linkStateReport n s h
  | flushTimerExpiry => exact .flushTimerExpiry s h
  | quiesceCompletionReport sid => exact .quiesceCompletionReport sid s h
  | detach arg => exact .whileReleased (.commandWrite fun z => .detachAt _ z) h
  | fence arg => exact .whileReleased (.commandWrite fun z => .fenceAt _ z) h
  | releaseFence arg => exact .whileReleased (.commandWrite fun z => .releaseAt _ z) h
  | clearFault arg => exact .whileReleased (.commandWrite fun z => .clearFaultAt _ z) h
  | quiesce arg => exact .whileReleased (.commandWrite .quiesceCommand) h
  | resume arg => exact .whileReleased (.commandWrite .resumeCommand) h
  | inspect arg => exact .whileReleased (.commandWrite fun z => .lineCommand (by simp) z) h
  | scrub arg => exact .whileReleased (.commandWrite fun z => .lineCommand (fun _ h => (CommandMsg.scrub.inj h).symm) z) h
  | undefinedCommandCode => exact .undefinedCommandCode h
  | commandOutcome => exact .commandOutcome s h
  | configurationWrite => exact .configurationWrite h
  | alertStatusWrite v => exact .alertStatusWrite h
  | offsetWrite off => exact .whileReleased (.setOffset off s) h
  | shortWrite => exact .shortWrite h
  | registerWriteNoEffect => exact .registerWriteNoEffect h
  | powerOnReset => cases h; exact .powerOnReset (fun ⟨_, _, _, _, _, hc, _⟩ => hc rfl) s
  | powerOnResetRelease => exact .powerOnResetRelease h
  | hardReset => exact .execHardReset h
  | hardResetRelease => exact .hardResetRelease (fun ⟨_, _, _, _, _, _, hc⟩ => hc _ _ rfl) h

/-! ## Every step -/

/-- The clear runs on over nothing stored (R183). -/
theorem Dram.clearTo_of_empty {d : Dram} {hi : Nat} (hcells : d.cells = []) (hmarks : d.marks = []) (hknown : d.known = []) :
    (d.clearTo hi).cells = [] ∧ (d.clearTo hi).marks = [] ∧ (d.clearTo hi).known = [] := by
  unfold Dram.clearTo
  split
  · exact ⟨hcells, hmarks, hknown⟩
  · simp [hcells, hmarks, hknown]

/-- One millisecond carries every invariant over. -/
theorem State.Follows.idleTick (s : State) : s.Follows False s.idleTick := by
  have htick : s.Follows False { s with now := s.now + 1 } := .frame rfl rfl rfl rfl
  simp only [State.idleTick]
  split
  · exact htick
  · refine htick.trans (.updDram rfl (Memory.wf_clearOn _ _ _) (fun h => ?_) id)
    have hruns : s.mem.dram.clearRunning = true := by
      by_contra hstopped
      simp [Dram.clearOn, hstopped] at h
    refine ⟨hruns, fun hcells hmarks hknown => ?_⟩
    rw [Dram.clearOn, if_pos hruns]
    exact Dram.clearTo_of_empty hcells hmarks hknown

/-- Every step carries every invariant over. -/
theorem step_follows (s t : State) (h : step s = .next t) : s.Follows False t := by
  unfold step at h
  split at h
  · cases h; exact .idleTick s
  · next c cs hpending =>
    obtain ⟨hb, hs, hf, hl, hd, hm, hc, -⟩ := exec_follows c _ t h
    exact ⟨hb, hs, hf, hl, hd, hm, hc, False.elim⟩

/-! ## The statements -/

/-- Settles O55, command by command: `exec_follows` with the seven exceptions as its premise. -/
theorem otherCommandsLeaveTheDram : Obligations.OtherCommandsLeaveTheDram := by
  unfold Obligations.OtherCommandsLeaveTheDram
  intro c s t h hread hfull hmerge hpoison hclear hreset hrelease
  exact (exec_follows c s t h).dram ⟨hread, hfull, hmerge, hpoison, hclear, hreset, hrelease⟩

/-- Settles O56. -/
theorem stepsKeepTheMemoryCanonical : Obligations.StepsKeepTheMemoryCanonical := by
  unfold Obligations.StepsKeepTheMemoryCanonical
  exact ⟨fun s t hs h => (step_follows s t h).memoryCanonical hs, fun s t hs h => (step_follows s t h).clearStoresNothing hs⟩

/-- Settles O57. -/
theorem stepsKeepTheBounds : Obligations.StepsKeepTheBounds := by
  unfold Obligations.StepsKeepTheBounds
  exact fun s t hs h => (step_follows s t h).bounded hs

/-- Settles O58. -/
theorem stepsKeepSoleHolders : Obligations.StepsKeepSoleHolders := by
  unfold Obligations.StepsKeepSoleHolders
  exact ⟨fun s t hs h => (step_follows s t h).soleHolders hs, fun s t hs h => (step_follows s t h).freeRecordsIdle hs⟩

/-- Settles O59. -/
theorem stepsKeepTheDirectory : Obligations.StepsKeepTheDirectory := by
  unfold Obligations.StepsKeepTheDirectory
  exact ⟨fun s t hs h => (step_follows s t h).linesAtHome hs, fun s t hsole hhome hs h => (step_follows s t h).directoryConsistent hsole hhome hs⟩

/-! ## The state after reset -/

theorem Slice.initial_eq_atReset : Slice.initial = Slice.initial.atReset := rfl

/-- Settles O60: the slices are as at any reset, and everything else is empty. -/
theorem invariantsHoldAtReset : Obligations.InvariantsHoldAtReset := by
  unfold Obligations.InvariantsHoldAtReset
  have hslice (sid : SliceId) : State.reset.slices[sid] = Slice.initial.atReset := by simp [State.reset, ← Slice.initial_eq_atReset]
  have hlink (n : Agent) : State.reset.links[n] = LinkUnit.initial := by simp [State.reset]
  refine ⟨rfl, ⟨fun n => ?_, fun sid => ?_, by decide, by decide, by decide⟩, fun sid => ?_, fun sid => ?_, fun _ => ⟨rfl, rfl, rfl⟩,
    (State.linesAtHome_iff _).2 ⟨fun sid => ?_, fun n => ?_, fun sid l h => ?_⟩, fun sid => ?_⟩
  · rw [hlink]; exact LinkUnit.bounded_initial
  · rw [hslice]; exact Slice.bounded_atReset _
  · rw [hslice]; exact Slice.soleHolders_atReset _
  · rw [hslice]; exact Slice.freeRecordsIdle_atReset _
  · rw [hslice]; exact Slice.linesAtHome_atReset _ _
  · rw [hlink]; exact LinkUnit.linesAtHome_initial
  · simp [State.reset, Mgmt.initial] at h
  · rw [hslice]; exact Slice.directoryConsistent_atReset _ _

end Sys2Proof.Machine

/-!
A step on a queue and on an empty one (log 2), which terms run (log 18), and the register window after the resets (12.4, R199, R209).
-/

namespace Sys2Proof.Machine

/-- Settles O1. -/
theorem stepRunsTheFrontCommand : Obligations.StepRunsTheFrontCommand := by
  unfold Obligations.StepRunsTheFrontCommand
  exact fun _ _ => rfl

/-- Settles O2, with and without power-on reset. -/
theorem anIdleStepPassesOneMillisecond : Obligations.AnIdleStepPassesOneMillisecond := by
  unfold Obligations.AnIdleStepPassesOneMillisecond
  intro s hpending
  have hstep : step s = .next s.idleTick := by rw [step, hpending]
  rw [hstep, State.idleTick]
  by_cases hpin : s.resetPin = .powerOn <;> simp [hpin, State.updMem, State.poolLines]

/-- Settles O20: the model's own law of a still slice. -/
theorem nothingFollowsAtAStillSlice : Obligations.NothingFollowsAtAStillSlice := by
  unfold Obligations.NothingFollowsAtAStillSlice
  exact fun env wake x h => Slice.goOn_of_still env wake x h

/-! ## Which terms run (log 18) -/

theorem exec_messageFailingFormTest_arriving (n : Agent) (m : MalformedMsg) (s : State) :
    (failsForm m = true → ∃ t, exec (.messageFailingFormTest n (.arriving m)) s = .next t)
      ∧ (failsForm m = false → exec (.messageFailingFormTest n (.arriving m)) s = .refused .illFormed) := by
  constructor <;> intro h
  · exact ⟨_, if_pos h⟩
  · exact if_neg (by rw [h]; decide)

theorem exec_configurationWrite (off : BitVec 8) (v : BitVec 32) (s : State) :
    ((off = offConfig ∨ off = offAlertMask) → ∃ t, exec (.configurationWrite off v) s = .next t)
      ∧ (¬(off = offConfig ∨ off = offAlertMask) → exec (.configurationWrite off v) s = .refused .illFormed) := by
  constructor <;> intro h
  · by_cases hconfig : off = offConfig
    · exact ⟨_, if_pos hconfig⟩
    · exact ⟨_, (if_neg hconfig).trans (if_pos (h.resolve_left hconfig))⟩
  · exact (if_neg fun h' => h (.inl h')).trans (if_neg fun h' => h (.inr h'))

/-- Settles O3: a command of the five rows that bound their operands is refused outside those bounds; every other term runs. -/
theorem wellFormedCommandsRun : Obligations.WellFormedCommandsRun := by
  unfold Obligations.WellFormedCommandsRun
  intro c s
  cases c with
  | undefinedCommandCode code arg =>
    cases h : commandDefined code <;> simp [exec, execUndefinedCommandCode, Instr.wf, h, whileReleased]
  | configurationWrite off v =>
    obtain ⟨hruns, hrefused⟩ := exec_configurationWrite off v s
    exact ⟨fun h => hruns (by simpa [Instr.wf] using h), fun h => hrefused (by simpa [Instr.wf] using h)⟩
  | registerWriteNoEffect off v =>
    cases h : (Instr.registerWriteNoEffect off v).wf <;> simp [exec, execRegisterWriteNoEffect, h, whileReleased]
  | shortWrite off data =>
    cases h : (1 ≤ data.length && data.length ≤ 3) <;> simp only [exec, execShortWrite, Instr.wf, h, whileReleased] <;> simp
  | messageFailingFormTest n src =>
    cases src with
    | waiting => exact ⟨fun _ => ⟨_, rfl⟩, fun h => nomatch h⟩
    | arriving m => exact exec_messageFailingFormTest_arriving n m s
  | _ => exact ⟨fun _ => ⟨_, rfl⟩, fun h => nomatch h⟩

/-! ## The register window (12.4) -/

/-- The management unit as either reset leaves it: all but the alert items and memory ready at the reset values (R199, R209). -/
def Mgmt.afterReset (alerts : BitVec 19) (ready : Bool) : Mgmt := { Mgmt.initial with alerts := alerts, memoryReady := ready }

theorem Mgmt.afterReset_linkCopy (a : BitVec 19) (r : Bool) (n : Agent) : (Mgmt.afterReset a r).linkCopy[n].word = 0 := by
  have h : (Mgmt.afterReset a r).linkCopy[n] = ⟨.offline, .unset⟩ := by simp [Mgmt.afterReset, Mgmt.initial]
  rw [h]
  decide

theorem Mgmt.afterReset_configWord (a : BitVec 19) (r : Bool) : (Mgmt.afterReset a r).configWord = 0x141401FF#32 := by
  have h : (Mgmt.afterReset a r).configWord = Mgmt.initial.configWord := rfl
  rw [h]
  decide

theorem Mgmt.afterReset_quiesceWord (a : BitVec 19) (r : Bool) :
    (Mgmt.afterReset a r).quiesceWord = if r then 0x00010000#32 else 0#32 := by
  have h : (Mgmt.afterReset a r).quiesceWord = (Mgmt.afterReset 0 r).quiesceWord := rfl
  rw [h]
  cases r <;> decide

/-- The management unit's own registers, below 0x40, after a reset: the configuration, the alert items and memory ready. -/
theorem State.readRegister_afterReset_low {s : State} {a : BitVec 19} {r : Bool} (hmgmt : s.mgmt = Mgmt.afterReset a r) {off : BitVec 8}
    (hlow : off.toNat < 0x40) : s.readRegister off =
      if off = 0x04 then 0x141401FF#32 else if off = 0x0C then fieldAt 0 a
      else if off = 0x1C then (if r then 0x00010000#32 else 0#32) else 0#32 := by
  have hoff (k : BitVec 8) : off = k ↔ off.toNat = k.toNat := BitVec.toNat_inj.symm
  simp only [hoff, State.readRegister, hmgmt, State.readAgentRegister, Mgmt.afterReset_linkCopy, Mgmt.afterReset_configWord,
    Mgmt.afterReset_quiesceWord]
  generalize off.toNat = o at hlow
  by_cases h4 : o = 4
  · subst h4; simp
  · by_cases hC : o = 12
    · subst hC; simp [Mgmt.afterReset]
    · by_cases h1C : o = 28
      · subst h1C; simp
      · have hzero : (Mgmt.afterReset a r).statusWord = 0#32 := by
          have hstatus : (Mgmt.afterReset a r).statusWord = Mgmt.initial.statusWord := rfl
          rw [hstatus]
          decide
        simp only [h4, hC, h1C, if_false, hzero, hlow, if_true]
        simp [Mgmt.afterReset, Mgmt.initial, fieldAt, show o < 0xC0 by omega, h4, hC, h1C]

/-- Where the link units and the memory channel are at their reset values too, the rest of the window reads as zero. -/
theorem State.readRegister_initial {s : State} (hmgmt : s.mgmt = Mgmt.initial) (hlinks : ∀ n : Agent, s.links[n] = LinkUnit.initial)
    (hcorrected : s.mem.corrected = 0) (huncorrectable : s.mem.uncorrectable = 0) (hlast : s.mem.lastUncorrectable = none) (off : BitVec 8) :
    s.readRegister off = if off = 0x04 then 0x141401FF else 0 := by
  by_cases hlow : off.toNat < 0x40
  · rw [State.readRegister_afterReset_low (a := 0) (r := false) hmgmt hlow]
    simp [fieldAt]
  · have h4 : off ≠ 0x04 := fun h => hlow (by rw [h]; decide)
    have h20 : ¬off.toNat < 0x20 := by omega
    have hfault : LinkUnit.initial.faultWord = 0 := by decide
    have hline : LinkUnit.initial.faultLineWord = 0 := rfl
    have hcounters : LinkUnit.initial.countersWord = 0 := by decide
    have hretries : LinkUnit.initial.retries = 0 := rfl
    have hagent : s.readAgentRegister off.toNat = 0 := by
      simp [State.readAgentRegister, hlinks, hfault, hline, hcounters, hretries, hlow, fieldAt]
    rw [if_neg h4]
    simp [State.readRegister, hagent, h20, MemChannel.lastWord, hcorrected, huncorrectable, hlast, fieldAt]

/-- What a hard reset keeps of a link unit: everything that its registers show but for what it discards (R132, R154). -/
theorem State.hardReset_link (s : State) (n : Agent) : s.hardReset.links[n] = s.links[n].hardReset := by
  simp [State.hardReset]

theorem LinkUnit.hardReset_faultWord (u : LinkUnit) : u.hardReset.faultWord = u.faultWord := rfl

theorem LinkUnit.hardReset_faultLineWord (u : LinkUnit) : u.hardReset.faultLineWord = u.faultLineWord := rfl

theorem LinkUnit.hardReset_retries (u : LinkUnit) : u.hardReset.retries = u.retries := rfl

/-- Two halves of a register. -/
theorem fieldAt_or_fieldAt_16 (high low : BitVec 16) : fieldAt 0 low ||| fieldAt 16 high = high ++ low := by
  apply BitVec.eq_of_getLsbD_eq
  intro i hi
  have happend : (high ++ low).getLsbD i = if i < 16 then low.getLsbD i else high.getLsbD (i - 16) := BitVec.getLsbD_append
  rw [happend]
  by_cases hlow : i < 16
  · simp [fieldAt, hlow, hi]
  · have hout : low.getLsbD i = false := BitVec.getLsbD_of_ge low i (by omega)
    simp [fieldAt, hlow, hi, hout]

theorem LinkUnit.hardReset_countersWord (u : LinkUnit) : u.hardReset.countersWord =
    BitVec.ofNat 16 (min (u.discarded.toNat + u.requestChannel.length) 65535) ++ u.dataCheckFailures := fieldAt_or_fieldAt_16 _ _

/-- The counters of agent n (12.4, offset 0x80 + 8n). -/
theorem State.readRegister_counters (s : State) (n : Agent) :
    s.readRegister (BitVec.ofNat 8 (0x80 + 8 * n.val)) = s.links[n].countersWord := by
  have hoff : (BitVec.ofNat 8 (0x80 + 8 * n.val)).toNat = 0x80 + 8 * n.val := by
    rw [BitVec.toNat_ofNat]
    omega
  have hagent : agentAt (0x80 + 8 * n.val) 0x80 8 = n := Fin.ext (by simp only [agentAt]; omega)
  simp only [State.readRegister, State.readAgentRegister, hoff, hagent]
  rw [if_neg (by omega), if_neg (by omega), if_pos (by omega), if_neg (by omega), if_neg (by omega), if_pos (by omega)]

/-- From 0x40 on a hard reset changes nothing that the window shows but the counters of 0x80 + 8n. -/
theorem State.readRegister_hardReset_high (s : State) {off : BitVec 8} (hhigh : 0x40 ≤ off.toNat)
    (hcounters : ∀ n : Agent, off ≠ BitVec.ofNat 8 (0x80 + 8 * n.val)) : s.hardReset.readRegister off = s.readRegister off := by
  have hkept : 0x80 ≤ off.toNat → off.toNat < 0xC0 → off.toNat % 8 ≠ 0 := fun h80 hC0 h8 => by
    refine hcounters ⟨(off.toNat - 0x80) / 8, by omega⟩ (BitVec.eq_of_toNat_eq ?_)
    rw [BitVec.toNat_ofNat]
    simp only
    omega
  have hagent (h : off.toNat < 0xC0) : s.hardReset.readAgentRegister off.toNat = s.readAgentRegister off.toNat := by
    simp only [State.readAgentRegister, State.hardReset_link, LinkUnit.hardReset_faultWord, LinkUnit.hardReset_faultLineWord,
      LinkUnit.hardReset_retries]
    by_cases h80 : off.toNat < 0x80
    · simp only [show ¬off.toNat < 0x40 by omega, if_false, h80, if_true]
    · simp only [show ¬off.toNat < 0x40 by omega, if_false, h80, hkept (by omega) h]
  simp only [State.readRegister]
  rw [if_neg (show ¬off.toNat < 0x20 by omega), if_neg (show ¬off.toNat < 0x20 by omega)]
  by_cases hC0 : off.toNat < 0xC0
  · rw [hagent hC0]
    simp [hC0]
  · simp only [hC0, if_false]
    rfl

/-- Settles O6: the registers below 0x40 are the management unit's, which both resets set; the link units' and the memory channel's are cleared
by a power-on reset and kept by a hard reset, but that the request channel is discarded and counted. -/
theorem theRegisterWindowAfterReset : Obligations.TheRegisterWindowAfterReset := by
  unfold Obligations.TheRegisterWindowAfterReset
  refine ⟨fun off => ?_, fun s off => ?_, fun s n => ?_, fun s off hoff => ?_⟩
  · exact State.readRegister_initial rfl (fun n => by simp [State.reset]) rfl rfl rfl off
  · exact State.readRegister_initial rfl (fun n => by simp [State.powerOnReset]) rfl rfl rfl off
  · rw [State.readRegister_counters, State.hardReset_link, LinkUnit.hardReset_countersWord]
  · by_cases hlow : off.toNat < 0x40
    · have hmgmt : s.hardReset.mgmt = Mgmt.afterReset (s.mgmt.alerts &&& alertsKept) (!s.mem.dram.clearRunning) := rfl
      have halerts : fieldAt 0 (s.mgmt.alerts &&& alertsKept) = s.readRegister 0x0C &&& 0x0004FF00 := by
        have hread : s.readRegister 0x0C = fieldAt 0 s.mgmt.alerts := rfl
        rw [hread]
        simp [fieldAt, alertsKept, BitVec.setWidth_and]
      rw [State.readRegister_afterReset_low hmgmt hlow, halerts, if_pos hlow]
      cases s.mem.dram.clearRunning <;> rfl
    · have h4 : off ≠ 0x04 := fun h => hlow (by rw [h]; decide)
      have hC : off ≠ 0x0C := fun h => hlow (by rw [h]; decide)
      have h1C : off ≠ 0x1C := fun h => hlow (by rw [h]; decide)
      rw [if_neg h4, if_neg hC, if_neg h1C, if_neg hlow]
      exact State.readRegister_hardReset_high s (by omega) hoff

end Sys2Proof.Machine

/-!
Messages of the request channel at a link unit: the order of the channel (R136), the tests of R137 one by one, and what a message that
passes them, or fails one, does.
-/

namespace Sys2Proof.Machine

section
variable {n : Agent} {m : ReqMsg} {s : State} {src : Take ReqMsg} {rest : List ReqMsg} {tag : Tag} {line : LineAddr}

/-! ## Taking a message -/

/-- In ONLINE, DRAINING and FENCED, and in OFFLINE, a message that can be taken is (R136). -/
theorem messageEvent_presents {received : Bool} {p : ReqMsg → Bool} (hpin : s.resetPin = .released) (h : s.links[n].presents src m rest)
    (hkind : p m = true) (htake : s.links[n].canTake m = true) :
    messageEvent n received s (fun s => s.requestChannelEvent n src p)
      = .next ((s.updLink n fun u => { u with requestChannel := rest }).takeMessage n m) := by
  rw [messageEvent_released _ _ _ hpin, State.requestChannelEvent_of_presents h hkind htake]

theorem LinkUnit.canTake_of_lt {u : LinkUnit} (h : u.reservations < 16) (m : ReqMsg) : u.canTake m = true := by
  have hplace : decide (u.reservations < Config.tagPlaces) = true := decide_eq_true h
  simp [LinkUnit.canTake, hplace]

theorem LinkUnit.canTake_of_untagged {u : LinkUnit} (h : m.tag = none) : u.canTake m = true := by simp [LinkUnit.canTake, h]

theorem State.takeMessage_of_session (h : s.links[n].state.session = true) : s.takeMessage n m = s.takeInSession n m := by
  rw [State.takeMessage, if_pos h]

theorem State.takeMessage_of_offline (h : s.links[n].state = .offline) : s.takeMessage n m = s.takeOffline n m := by
  rw [State.takeMessage, h]
  rfl

theorem State.takeMessage_of_fenced (h : s.links[n].state ∈ [LinkState.fencedSweeping, .fencedSwept]) :
    s.takeMessage n m = s.updLink n LinkUnit.discard := by
  have hoffline : s.links[n].state ≠ .offline := fun e => by rw [e] at h; revert h; decide
  rw [State.takeMessage, if_neg (by rw [LinkState.not_session_of_fenced h]; decide), if_neg hoffline]

/-! ## The tests of R137 -/

/-- The part after a tagged message has reserved its place and passed its data check, if it has one (R136, R145). -/
def State.tookTagged (n : Agent) (m : ReqMsg) (s : State) : State :=
  s.updLink n fun u => { u with
    reservations := u.reservations + 1
    consecutive := if m.checked = some true then 0 else u.consecutive }

theorem State.takeInSession_of_passed (htag : m.tag = some tag) (hcheck : m.checked ≠ some false) :
    s.takeInSession n m = (s.tookTagged n m).testMessage n m := by
  have htagged : m.tag.isSome = true := by rw [htag]; rfl
  simp only [State.takeInSession, htagged, if_true]
  cases hchecked : m.checked with
  | none => simp [State.tookTagged, hchecked]
  | some passed =>
    cases passed with
    | false => exact absurd hchecked hcheck
    | true => simp [State.tookTagged, State.dataCheckPassed, State.updLink_updLink, hchecked]

theorem State.takeInSession_of_failed (htag : m.tag = some tag) (hcheck : m.checked = some false) :
    s.takeInSession n m = (s.updLink n fun u => { u with reservations := u.reservations + 1 }).dataCheckFailed n
      ⟨.dataCheck, some (.request, m.code), m.line, some tag⟩ (LinkUnit.push (.final (.dataRetry tag))) := by
  simp only [State.takeInSession, htag, Option.isSome_some, if_true, hcheck]

/-- A failed check before the sixteenth in a row is counted and answered (R144, R145). -/
theorem State.dataCheckFailed_of_lt {f : FaultRecord} {retry : LinkUnit → LinkUnit} (h : s.links[n].consecutive < 15) :
    s.dataCheckFailed n f retry = s.updLink n fun u =>
      retry { u with dataCheckFailures := satInc u.dataCheckFailures, consecutive := u.consecutive + 1 } := by
  have hmin : min (s.links[n].consecutive + 1) Config.dataCheckLimit = s.links[n].consecutive + 1 :=
    Nat.min_eq_left (by simp only [Config.dataCheckLimit]; omega)
  simp only [State.dataCheckFailed, State.updLink_self, hmin]
  rw [if_neg (by simp only [Config.dataCheckLimit]; omega), State.updLink_updLink]
  exact State.updLink_congr (by simp only [hmin])

/-- The sixteenth failed check in a row is counted and is a fence cause (R145). -/
theorem State.dataCheckFailed_of_eq {f : FaultRecord} {retry : LinkUnit → LinkUnit} (h : s.links[n].consecutive = 15) :
    s.dataCheckFailed n f retry = (s.updLink n fun u =>
      { u with dataCheckFailures := satInc u.dataCheckFailures, consecutive := 16 }).takeCause n f := by
  have hmin : min (s.links[n].consecutive + 1) Config.dataCheckLimit = 16 := by rw [h]; rfl
  simp only [State.dataCheckFailed, State.updLink_self, hmin]
  rw [if_pos (show 16 = Config.dataCheckLimit from rfl)]
  exact congrArg _ (State.updLink_congr (by simp only [hmin]))

/-- The class decides first (R137 step 3, R138). -/
theorem State.testMessage_tagged (htag : m.tag = some tag) (hline : m.line = some line) : s.testMessage n m =
    if s.links[n].cls.allows m then s.routeTagged n m tag line
    else s.takeCause n (protocolFault .request m.code (some line) (some tag)) := by
  cases m <;> cases htag <;> cases hline <;> simp only [State.testMessage, ReqMsg.tag, ReqMsg.line] <;>
    cases s.links[n].cls.allows _ <;> rfl

theorem State.routeTagged_of_outstanding (h : s.links[n].tags[tag] = true) :
    s.routeTagged n m tag line = s.takeCause n (protocolFault .request m.code (some line) (some tag)) := if_pos h

theorem State.routeTagged_of_departing (htags : s.links[n].tags[tag] = false) (hstate : s.links[n].state.draining = true)
    (hreturn : m.isReturn = false) : s.routeTagged n m tag line = s.updLink n (LinkUnit.push (.final (.refused tag .departing))) := by
  simp [State.routeTagged, -Fin.getElem_fin, htags, hstate, hreturn]

/-- A message out of range: a request is refused, a return is a fault (R2). -/
theorem State.routeTagged_of_outside (htags : s.links[n].tags[tag] = false) (hstate : s.links[n].state.draining = true → m.isReturn = true)
    (hrange : s.poolLines ≤ line.toNat) : s.routeTagged n m tag line =
      if m.isReturn then s.takeCause n (protocolFault .request m.code (some line) (some tag))
      else s.updLink n (LinkUnit.push (.final (.refused tag .address))) := by
  have hout : s.inRange line = false := decide_eq_false (Nat.not_lt.2 hrange)
  have hgo : (s.links[n].state.draining && !m.isReturn) = false := by
    cases hd : s.links[n].state.draining
    · rfl
    · rw [hstate hd]; rfl
  simp [State.routeTagged, -Fin.getElem_fin, htags, hgo, hout]

theorem State.routeTagged_of_inRange {x : SliceMsg} (htags : s.links[n].tags[tag] = false)
    (hstate : s.links[n].state.draining = true → m.isReturn = true) (hrange : line.toNat < s.poolLines) (hrouted : m.routed = some x) :
    s.routeTagged n m tag line = s.updLink n fun u => (u.setTag tag true).route (sliceOf line) x := by
  have hin : s.inRange line = true := decide_eq_true hrange
  have hgo : (s.links[n].state.draining && !m.isReturn) = false := by
    cases hd : s.links[n].state.draining
    · rfl
    · rw [hstate hd]; rfl
  simp [State.routeTagged, -Fin.getElem_fin, htags, hgo, hin, hrouted]

/-! ## Routed messages -/

/-- A tagged message that passes every test of R137 is routed. -/
theorem State.takeMessage_routed {x : SliceMsg} (hsession : s.links[n].state ∈ [LinkState.online, .drainingSettling, .drainingSweeping])
    (hstate : s.links[n].state = .online ∨ m.isReturn = true) (htag : m.tag = some tag) (hline : m.line = some line)
    (htags : s.links[n].tags[tag] = false) (hrange : line.toNat < s.poolLines) (hclass : s.links[n].cls.allows m = true)
    (hcheck : m.checked ≠ some false) (hrouted : m.routed = some x) : s.takeMessage n m = s.updLink n fun u =>
      { u.accepted u.requestChannel tag (sliceOf line) x with consecutive := if m.checked = some true then 0 else u.consecutive } := by
  have hdraining : s.links[n].state.draining = true → m.isReturn = true := fun hd => hstate.resolve_left fun h => by
    rw [h] at hd; cases hd
  have hrouteTagged : (s.tookTagged n m).routeTagged n m tag line
      = (s.tookTagged n m).updLink n fun u => (u.setTag tag true).route (sliceOf line) x :=
    State.routeTagged_of_inRange (s := s.tookTagged n m) (by rw [State.tookTagged, State.updLink_self]; exact htags)
      (by rw [State.tookTagged, State.updLink_self]; exact hdraining) hrange hrouted
  rw [State.takeMessage_of_session (LinkState.session_of_mem hsession), State.takeInSession_of_passed htag hcheck,
    State.testMessage_tagged htag hline, if_pos (by rw [State.tookTagged, State.updLink_self]; exact hclass), hrouteTagged,
    State.tookTagged, State.updLink_updLink]
  exact State.updLink_congr rfl

/-- The event of a tagged message that passes every test. -/
theorem messageEvent_routed {received : Bool} {p : ReqMsg → Bool} {x : SliceMsg} (hpin : s.resetPin = .released)
    (hsession : s.links[n].state ∈ [LinkState.online, .drainingSettling, .drainingSweeping])
    (hstate : s.links[n].state = .online ∨ m.isReturn = true) (hplaces : s.links[n].reservations < 16) (htag : m.tag = some tag)
    (hline : m.line = some line) (htags : s.links[n].tags[tag] = false) (hrange : line.toNat < s.poolLines)
    (hclass : s.links[n].cls.allows m = true) (hcheck : m.checked ≠ some false) (hrouted : m.routed = some x)
    (hpresents : s.links[n].presents src m rest) (hkind : p m = true) :
    messageEvent n received s (fun s => s.requestChannelEvent n src p) = .next (s.updLink n fun u =>
      { u.accepted rest tag (sliceOf line) x with consecutive := if m.checked = some true then 0 else u.consecutive }) := by
  have htaken : (s.updLink n fun u => { u with requestChannel := rest }).takeMessage n m = _ :=
    State.takeMessage_routed (by rw [State.updLink_self]; exact hsession) (by rw [State.updLink_self]; exact hstate) htag hline
      (by rw [State.updLink_self]; exact htags) hrange (by rw [State.updLink_self]; exact hclass) hcheck hrouted
  rw [messageEvent_presents hpin hpresents hkind (LinkUnit.canTake_of_lt hplaces m), htaken, State.updLink_updLink]
  exact congrArg _ (State.updLink_congr rfl)

/-- The event of a tagged message without a data check that passes every test. -/
theorem messageEvent_routed_unchecked {received : Bool} {p : ReqMsg → Bool} {x : SliceMsg} (m : ReqMsg) (hpin : s.resetPin = .released)
    (hsession : s.links[n].state ∈ [LinkState.online, .drainingSettling, .drainingSweeping])
    (hstate : s.links[n].state = .online ∨ m.isReturn = true) (hplaces : s.links[n].reservations < 16) (htag : m.tag = some tag)
    (hline : m.line = some line) (htags : s.links[n].tags[tag] = false) (hrange : line.toNat < s.poolLines)
    (hclass : s.links[n].cls.allows m = true) (hcheck : m.checked = none) (hrouted : m.routed = some x)
    (hpresents : s.links[n].presents src m rest) (hkind : p m = true) :
    messageEvent n received s (fun s => s.requestChannelEvent n src p) = .next (s.updLink n (LinkUnit.accepted rest tag (sliceOf line) x)) := by
  rw [messageEvent_routed hpin hsession hstate hplaces htag hline htags hrange hclass (by simp [hcheck]) hrouted
    hpresents hkind]
  exact congrArg _ (State.updLink_congr (by simp only [hcheck]; rfl))

/-- The event of a tagged message that passes its data check and every test. -/
theorem messageEvent_routed_checked {received : Bool} {p : ReqMsg → Bool} {x : SliceMsg} (m : ReqMsg) (hpin : s.resetPin = .released)
    (hsession : s.links[n].state ∈ [LinkState.online, .drainingSettling, .drainingSweeping])
    (hstate : s.links[n].state = .online ∨ m.isReturn = true) (hplaces : s.links[n].reservations < 16) (htag : m.tag = some tag)
    (hline : m.line = some line) (htags : s.links[n].tags[tag] = false) (hrange : line.toNat < s.poolLines)
    (hclass : s.links[n].cls.allows m = true) (hcheck : m.checked = some true) (hrouted : m.routed = some x)
    (hpresents : s.links[n].presents src m rest) (hkind : p m = true) :
    messageEvent n received s (fun s => s.requestChannelEvent n src p)
      = .next (s.updLink n fun u => { u.accepted rest tag (sliceOf line) x with consecutive := 0 }) := by
  rw [messageEvent_routed hpin hsession hstate hplaces htag hline htags hrange hclass (by rw [hcheck]; decide) hrouted
    hpresents hkind]
  exact congrArg _ (State.updLink_congr (by simp only [hcheck, if_true]))

/-- Settles O7: each kind is a case of `messageEvent_routed_unchecked` or `messageEvent_routed_checked`. -/
theorem messagesAreRoutedToTheirSlice : Obligations.MessagesAreRoutedToTheirSlice := by
  unfold Obligations.MessagesAreRoutedToTheirSlice
  refine ⟨fun n src m rest s hpin hstate hplaces htags hrange => ?requests, fun n src m rest s hpin hstate hplaces htags hrange hcheck hp => ?write,
    fun n src m rest s hpin hstate hclass hplaces htags hrange hcheck hp => ?dirty, fun n src m rest s hpin hstate hclass hplaces htags hrange hp => ?clean⟩
  case requests =>
    have hsession : s.links[n].state ∈ [LinkState.online, .drainingSettling, .drainingSweeping] := hstate ▸ List.mem_cons_self
    refine ⟨fun hclass => ⟨fun hp => ?_, fun hp => ?_, fun hp => ?_⟩, fun hp => ?_⟩
    · exact messageEvent_routed_unchecked (.fetchShared m) hpin hsession (.inl hstate) hplaces rfl rfl htags hrange (decide_eq_true hclass) rfl
        rfl hp rfl
    · exact messageEvent_routed_unchecked (.fetchOwned m) hpin hsession (.inl hstate) hplaces rfl rfl htags hrange (decide_eq_true hclass) rfl
        rfl hp rfl
    · exact messageEvent_routed_unchecked (.promote m) hpin hsession (.inl hstate) hplaces rfl rfl htags hrange (decide_eq_true hclass) rfl
        rfl hp rfl
    · exact messageEvent_routed_unchecked (.snapshot m) hpin hsession (.inl hstate) hplaces rfl rfl htags hrange rfl rfl rfl hp rfl
  case write =>
    have hsession : s.links[n].state ∈ [LinkState.online, .drainingSettling, .drainingSweeping] := hstate ▸ List.mem_cons_self
    exact messageEvent_routed_checked (.maskedWrite m) hpin hsession (.inl hstate) hplaces rfl rfl htags hrange rfl
      (congrArg some (decide_eq_true hcheck)) rfl hp rfl
  case dirty =>
    exact messageEvent_routed_checked (.returnDirty m) hpin hstate (.inr rfl) hplaces rfl rfl htags hrange (decide_eq_true hclass)
      (congrArg some (decide_eq_true hcheck)) rfl hp rfl
  case clean =>
    exact messageEvent_routed_unchecked (.returnClean m) hpin hstate (.inr rfl) hplaces rfl rfl htags hrange (decide_eq_true hclass) rfl rfl
      hp rfl

end

end Sys2Proof.Machine

/-!
Messages of the request channel that are not routed: those that wait (R136), fail a test of R137, open a session (R133, R134), start a drain
(R148, R149), or are discarded or refused (R134, R142, R210).
-/

namespace Sys2Proof.Machine

section
variable {n : Agent} {m : ReqMsg} {s : State} {src : Take ReqMsg} {rest : List ReqMsg} {tag : Tag} {line : LineAddr}

/-! ## The order of the channel (R136) -/

/-- A message cannot be taken where it is tagged, every tag place is reserved, and the link is in a session or holds a Hello (R136). -/
theorem LinkUnit.canTake_iff (u : LinkUnit) (m : ReqMsg) : u.canTake m = true ↔ ¬(m.tag ≠ none ∧ 16 ≤ u.reservations
    ∧ (u.state ∈ [.online, .drainingSettling, .drainingSweeping] ∨ (u.state = .offline ∧ u.heldHello ≠ none))) := by
  have hsession : u.state ∈ [LinkState.online, .drainingSettling, .drainingSweeping] ↔ u.state.session = true := by
    cases u.state <;> simp [LinkState.session]
  have hplaces : decide (u.reservations < Config.tagPlaces) = !decide (16 ≤ u.reservations) := by
    rw [← decide_not]
    exact decide_eq_decide.2 Nat.not_le.symm
  rw [hsession, LinkUnit.canTake, hplaces]
  by_cases hfull : 16 ≤ u.reservations <;> cases m.tag <;> cases u.heldHello <;> cases u.state.session <;> simp [hfull]

/-- The event of an arriving message is the channel's (R136). -/
theorem exec_command (hpin : s.resetPin = .released) (hmalformed : ∀ x, m = .malformed x → x.channel = .request ∧ failsForm x = true) :
    exec (m.command n) s = .next (if s.links[n].requestChannel = [] && s.links[n].canTake m then s.takeMessage n m
      else s.updLink n fun u => { u with requestChannel := u.requestChannel ++ [m] }) := by
  cases m with
  | malformed x =>
    obtain ⟨hchannel, hfails⟩ := hmalformed x rfl
    refine (if_pos hfails).trans ?_
    rw [messageEvent_released _ _ _ hpin, hchannel]
    rfl
  | _ => exact messageEvent_released _ _ _ hpin

/-- Settles O8: what blocks a message is that it cannot be taken (`LinkUnit.canTake_iff`). -/
theorem theRequestChannelKeepsOrder : Obligations.TheRequestChannelKeepsOrder := by
  unfold Obligations.TheRequestChannelKeepsOrder
  intro n m s hpin hmalformed u blocked
  have hcan : u.canTake m = true ↔ ¬blocked := LinkUnit.canTake_iff u m
  rw [exec_command hpin hmalformed]
  refine ⟨fun hempty hfree => ?_, fun h => ?_⟩
  · rw [if_pos (by rw [Bool.and_eq_true]; exact ⟨decide_eq_true hempty, hcan.2 hfree⟩)]
  · rw [if_neg]
    rw [Bool.and_eq_true]
    rintro ⟨hempty, htake⟩
    exact h.elim (fun hne => hne (of_decide_eq_true hempty)) fun hblocked => hcan.1 htake hblocked

/-! ## Failed tests (R137, R144) -/

/-- What a passed message has taken, in the statement's form. -/
theorem State.tookTagged_eq (n : Agent) (m : ReqMsg) (s : State) : s.tookTagged n m = s.updLink n fun u =>
    { u.reserved s.links[n].requestChannel with consecutive := if m.checked = some true then 0 else u.consecutive } :=
  State.updLink_congr rfl

theorem State.tookTagged_link (n : Agent) (m : ReqMsg) (s : State) : (s.tookTagged n m).links[n] =
    { s.links[n] with reservations := s.links[n].reservations + 1, consecutive := if m.checked = some true then 0 else s.links[n].consecutive } :=
  State.updLink_self _ _ _

/-- What a passed message that is refused has taken and is answered, in the statement's form. -/
theorem State.tookTagged_answered (n : Agent) (m : ReqMsg) (r : Response) (s : State) :
    (s.tookTagged n m).updLink n (LinkUnit.push (.final r)) = s.updLink n fun u =>
      { u.answered s.links[n].requestChannel r with consecutive := if m.checked = some true then 0 else u.consecutive } := by
  rw [State.tookTagged, State.updLink_updLink]
  exact State.updLink_congr rfl

/-- Where the data check has not failed, the other tests decide (R137). -/
theorem State.takeMessage_tested (hsession : s.links[n].state ∈ [LinkState.online, .drainingSettling, .drainingSweeping]) (htag : m.tag = some tag)
    (hline : m.line = some line) (hcheck : m.checked ≠ some false) : s.takeMessage n m =
      if s.links[n].cls.allows m then (s.tookTagged n m).routeTagged n m tag line
      else (s.tookTagged n m).takeCause n ⟨.protocol, some (.request, m.code), some line, some tag⟩ := by
  rw [State.takeMessage_of_session (LinkState.session_of_mem hsession), State.takeInSession_of_passed htag hcheck,
    State.testMessage_tagged htag hline, State.tookTagged_link]
  rfl

/-- Settles O9: the tests in their order. -/
theorem failedTestsDecideAMessage : Obligations.FailedTestsDecideAMessage := by
  unfold Obligations.FailedTestsDecideAMessage
  intro n m tag line s hsession htag hline rest fault took refused
  have htook : took = s.tookTagged n m := (State.tookTagged_eq n m s).symm
  have hrefused (r : Response) : refused r = (s.tookTagged n m).updLink n (LinkUnit.push (.final r)) := (State.tookTagged_answered n m r s).symm
  have hfailed (hcheck : m.checked = some false) := State.takeInSession_of_failed (s := s) (n := n) htag hcheck
  have htaken : s.takeMessage n m = s.takeInSession n m := State.takeMessage_of_session (LinkState.session_of_mem hsession)
  have htested (hcheck : m.checked ≠ some false) := State.takeMessage_tested hsession htag hline hcheck
  have hlink := State.tookTagged_link n m s
  refine ⟨fun hcheck hlt => ?retry, fun hcheck heq => ?sixteenth, fun hcheck hclass => ?kind, fun hcheck hclass htags => ?outstanding,
    fun hcheck hclass htags => ⟨fun hstate hreturn => ?departing, fun hstate hreturn hrange => ?address, fun hreturn hrange => ?range⟩⟩
  case retry =>
    rw [htaken, hfailed hcheck, State.dataCheckFailed_of_lt (by rw [State.updLink_self]; exact hlt), State.updLink_updLink]
    exact State.updLink_congr rfl
  case sixteenth =>
    rw [htaken, hfailed hcheck, State.dataCheckFailed_of_eq (by rw [State.updLink_self]; exact heq), State.updLink_updLink, hline]
    exact congrArg (State.takeCause n _) (State.updLink_congr rfl)
  case kind => rw [htested hcheck, hclass, htook]; rfl
  case outstanding =>
    rw [htested hcheck, if_pos hclass, State.routeTagged_of_outstanding (by rw [hlink]; exact htags), htook]
    rfl
  case departing =>
    have hdraining : s.links[n].state.draining = true := by
      revert hsession hstate
      cases s.links[n].state <;> simp [LinkState.draining]
    rw [htested hcheck, if_pos hclass, State.routeTagged_of_departing (by rw [hlink]; exact htags) (by rw [hlink]; exact hdraining) hreturn,
      hrefused]
  case address =>
    have hnotDraining : s.links[n].state.draining = true → m.isReturn = true := fun hd => by rw [hstate] at hd; cases hd
    rw [htested hcheck, if_pos hclass, State.routeTagged_of_outside (s := s.tookTagged n m) (by rw [hlink]; exact htags)
      (by rw [hlink]; exact hnotDraining) hrange, hreturn, hrefused]
    rfl
  case range =>
    rw [htested hcheck, if_pos hclass, State.routeTagged_of_outside (s := s.tookTagged n m) (by rw [hlink]; exact htags)
      (fun _ => hreturn) hrange, if_pos hreturn, htook]
    rfl

/-! ## A Hello (R133 to R135) -/

/-- Whether an answer to a Hello is queued. -/
theorem LinkUnit.helloAnswered_iff (u : LinkUnit) : u.helloAnswered = true ↔ (∃ p t, Outbound.control (.welcome p t) ∈ u.responses)
    ∨ Outbound.control .helloRefusedDisabled ∈ u.responses ∨ Outbound.control .helloRefusedRevision ∈ u.responses := by
  rw [LinkUnit.helloAnswered, List.any_eq_true]
  constructor
  · rintro ⟨x, hx, h⟩
    split at h
    · exact .inl ⟨_, _, hx⟩
    · exact .inr (.inl hx)
    · exact .inr (.inr hx)
    · cases h
  · rintro (⟨p, t, h⟩ | h | h)
    · exact ⟨_, h, rfl⟩
    · exact ⟨_, h, rfl⟩
    · exact ⟨_, h, rfl⟩

/-- A Hello in OFFLINE is discarded where another is held or answered, and opens a session otherwise. -/
theorem State.takeMessage_hello_offline {m : HelloMsg} (hstate : s.links[n].state = .offline) : s.takeMessage n (.hello m) =
    if s.links[n].heldHello.isSome || s.links[n].helloAnswered then s.updLink n LinkUnit.discard else s.openSession n m :=
  State.takeMessage_of_offline hstate

theorem State.openSession_of_refused {m : HelloMsg} (h : helloClass m.cls = none ∨ m.revision ≠ 1#4) :
    s.openSession n m = s.updLink n (LinkUnit.push (.control .helloRefusedRevision)) := by
  unfold State.openSession
  split
  · rfl
  · next hclass => rw [if_pos (h.resolve_left (by rw [hclass]; exact Option.some_ne_none _))]

theorem State.openSession_of_class {m : HelloMsg} {c : AgentClass} (hclass : helloClass m.cls = some c) (hrevision : m.revision = 1#4) :
    s.openSession n m = if !s.enabled n then s.updLink n (LinkUnit.push (.control .helloRefusedDisabled))
      else if !s.clearDone then s.updLink n fun u => { u with heldHello := some c } else s.welcome n c := by
  simp [State.openSession, hclass, hrevision]

theorem helloClass_of_defined {c : BitVec 3} (h : c = 1#3 ∨ c = 2#3) :
    helloClass c = some (if c = 1#3 then AgentClass.caching else .noncaching) := by
  obtain rfl | rfl := h <;> rfl

theorem helloClass_of_undefined {c : BitVec 3} (h : c ≠ 1#3 ∧ c ≠ 2#3) : helloClass c = none := by
  rw [helloClass, if_neg h.1, if_neg h.2]

/-- A Hello in OFFLINE, with none held and none answered, opens a session. -/
theorem exec_hello_opens {src : Take HelloMsg} {m : HelloMsg} (hpin : s.resetPin = .released) (hstate : s.links[n].state = .offline)
    (hheld : s.links[n].heldHello = none) (hanswered : s.links[n].helloAnswered = false)
    (hpresents : s.links[n].presents (src.map .hello) (.hello m) rest) :
    exec (.hello n src) s = .next ((s.updLink n fun u => { u with requestChannel := rest }).openSession n m) := by
  refine (messageEvent_presents hpin hpresents rfl (LinkUnit.canTake_of_untagged rfl)).trans (congrArg _ ?_)
  have hnone : (s.links[n].heldHello.isSome || s.links[n].helloAnswered) = false := by rw [hheld, hanswered]; rfl
  rw [State.takeMessage_hello_offline (by rw [State.updLink_self]; exact hstate), State.updLink_self]
  exact if_neg (by rw [Bool.not_eq_true]; exact hnone)

/-- Settles O10: a Hello in OFFLINE by the three tests of R133, and everywhere else. -/
theorem aHelloIsAnswered : Obligations.AHelloIsAnswered := by
  unfold Obligations.AHelloIsAnswered
  refine ⟨?_, fun n m s hpin hchannel => ⟨fun hsession => ?_, fun h => ?_⟩⟩
  · intro n src m rest s hpin hstate hheld hqueue hpresents answered cls
    have hanswered : s.links[n].helloAnswered = false := by
      rw [Bool.eq_false_iff, Ne, LinkUnit.helloAnswered_iff]
      rintro (⟨p, t, h⟩ | h | h)
      · exact (hqueue _ h).1 p t rfl
      · exact (hqueue _ h).2.1 rfl
      · exact (hqueue _ h).2.2 rfl
    rw [exec_hello_opens hpin hstate hheld hanswered hpresents]
    refine ⟨fun hrefused => congrArg _ ?_, fun hclass hrevision =>
      ⟨fun hdisabled => congrArg _ ?_, fun henabled hruns => congrArg _ ?_, fun henabled hdone => congrArg _ ?_⟩⟩
    · rw [State.openSession_of_refused (hrefused.imp helloClass_of_undefined id), State.updLink_updLink]
      rfl
    · rw [State.openSession_of_class (helloClass_of_defined hclass) hrevision, if_pos, State.updLink_updLink]
      · rfl
      · simpa [State.enabled] using hdisabled
    · rw [State.openSession_of_class (helloClass_of_defined hclass) hrevision, if_neg, if_pos, State.updLink_updLink]
      · simpa [State.clearDone] using hruns
      · simpa [State.enabled] using henabled
    · rw [State.openSession_of_class (helloClass_of_defined hclass) hrevision, if_neg, if_neg, State.welcome, State.updLink_updLink]
      · exact State.updLink_congr (by rw [hheld]; rfl)
      · simpa [State.clearDone] using hdone
      · simpa [State.enabled] using henabled
  · have hcommand := exec_command (n := n) (m := .hello m) hpin (fun _ h => nomatch h)
    refine hcommand.trans (congrArg _ ?_)
    rw [if_pos (by rw [hchannel, LinkUnit.canTake_of_untagged rfl]; rfl), State.takeMessage_of_session (LinkState.session_of_mem hsession)]
    rfl
  · have hcommand := exec_command (n := n) (m := .hello m) hpin (fun _ h => nomatch h)
    refine hcommand.trans (congrArg _ ?_)
    rw [if_pos (by rw [hchannel, LinkUnit.canTake_of_untagged rfl]; rfl)]
    obtain hfenced | ⟨hoffline, h⟩ := h
    · rw [State.takeMessage_of_fenced hfenced]
      rfl
    · rw [State.takeMessage_hello_offline hoffline, if_pos]
      · rfl
      · rw [Bool.or_eq_true, Option.isSome_iff_ne_none, LinkUnit.helloAnswered_iff]
        exact h

end

end Sys2Proof.Machine

/-!
The start of a drain (R148, R149), the messages that are discarded and counted or refused (R134, R142, R210), and the messages that fail the
form test (R210).
-/

namespace Sys2Proof.Machine

section
variable {n : Agent} {m : ReqMsg} {s : State} {src : Take ReqMsg} {rest : List ReqMsg} {u : LinkUnit}

/-! ## Untagged messages in a session (R137) -/

theorem State.takeInSession_of_untagged (htag : m.tag = none) : s.takeInSession n m = s.testMessage n m := by
  cases m <;> first | rfl | cases htag

/-- An untagged message that its command presents in a session is tested. -/
theorem messageEvent_untagged {received : Bool} {p : ReqMsg → Bool} (hpin : s.resetPin = .released)
    (hsession : s.links[n].state ∈ [LinkState.online, .drainingSettling, .drainingSweeping]) (htag : m.tag = none)
    (hpresents : s.links[n].presents src m rest) (hkind : p m = true) :
    messageEvent n received s (fun s => s.requestChannelEvent n src p)
      = .next ((s.updLink n fun u => { u with requestChannel := rest }).testMessage n m) := by
  rw [messageEvent_presents hpin hpresents hkind (LinkUnit.canTake_of_untagged htag),
    State.takeMessage_of_session (by rw [State.updLink_self]; exact LinkState.session_of_mem hsession),
    State.takeInSession_of_untagged htag]

theorem State.testMessage_depart (n : Agent) (s : State) : s.testMessage n .depart =
    if s.links[n].state = .online then s.updLink n LinkUnit.startDrain else s.updLink n LinkUnit.discard := rfl

/-- FlushDone is for CACHING agents (R138). -/
theorem State.testMessage_flushDone (hclass : s.links[n].cls = .caching) :
    s.testMessage n .flushDone = s.updLink n fun u => { u with flushDones := u.flushDones + 1 } := by
  simp [State.testMessage, AgentClass.allows, -Fin.getElem_fin, hclass]

/-! ## The settling condition (R149) -/

theorem LinkUnit.settleDrain_of_settled (hstate : u.state = .drainingSettling) (htags : ∀ t : Tag, u.tags[t] = false) (hconfirm : u.confirm = []) :
    u.settleDrain = { u with
      state := .drainingSweeping
      slicesReported := 0#4
      reports := u.reports ++ [⟨.drainingSweeping, u.cls⟩]
      notices := u.notices.map (· ++ [.drainSweep]) } := by
  rw [LinkUnit.settleDrain, if_pos (by simp [hstate, (LinkUnit.tagsFree_iff u).2 htags, hconfirm])]
  rfl

theorem LinkUnit.settleDrain_of_unsettled (h : ¬(u.state = .drainingSettling ∧ (∀ t : Tag, u.tags[t] = false) ∧ u.confirm = [])) :
    u.settleDrain = u := by
  rw [LinkUnit.settleDrain, if_neg]
  rw [← LinkUnit.tagsFree_iff] at h
  simpa [and_assoc] using h

/-- A drain that starts, before the settling condition is tested (R148). -/
def LinkUnit.settling (u : LinkUnit) : LinkUnit :=
  { u with
    state := .drainingSettling
    reports := u.reports ++ [⟨.drainingSettling, u.cls⟩]
    notices := u.notices.map (· ++ [.drain]) }

theorem LinkUnit.startDrain_eq (u : LinkUnit) : u.startDrain = u.settling.settleDrain := rfl

/-- Settles O11: the tests leave an untagged message, and the settling condition decides the start of a drain. -/
theorem aDrainStarts : Obligations.ADrainStarts := by
  unfold Obligations.ADrainStarts
  refine ⟨fun n src rest s hpin => ⟨fun hp => ⟨fun hstate => ?_, fun hstate => ?_⟩, fun hp hstate hclass => ?_⟩, fun u => ⟨fun h => ?_, fun htags hconfirm => ?_⟩⟩
  · refine (messageEvent_untagged hpin (hstate ▸ List.mem_cons_self) rfl hp rfl).trans (congrArg _ ?_)
    rw [State.testMessage_depart, if_pos (by rw [State.updLink_self]; exact hstate), State.updLink_updLink]
  · refine (messageEvent_untagged hpin (List.mem_cons_of_mem _ hstate) rfl hp rfl).trans (congrArg _ ?_)
    have hoffline : s.links[n].state ≠ .online := fun e => by rw [e] at hstate; revert hstate; decide
    rw [State.testMessage_depart, if_neg (by rw [State.updLink_self]; exact hoffline), State.updLink_updLink]
    rfl
  · refine (messageEvent_untagged hpin hstate rfl hp rfl).trans (congrArg _ ?_)
    rw [State.testMessage_flushDone (by rw [State.updLink_self]; exact hclass), State.updLink_updLink]
  · rw [LinkUnit.startDrain_eq, LinkUnit.settleDrain_of_unsettled]
    · rfl
    · rintro ⟨-, htags, hconfirm⟩
      obtain ⟨t, ht⟩ | hne := h
      · have hfree : u.tags[t] = false := htags t
        rw [hfree] at ht
        cases ht
      · exact hne hconfirm
  · rw [LinkUnit.startDrain_eq, LinkUnit.settleDrain_of_settled (u := u.settling) rfl htags hconfirm]
    simp [LinkUnit.settling, Function.comp_def]

/-! ## Discarded and refused (R134, R142) -/

/-- Outside a session a message of the reply channel is discarded and counted (R142). -/
theorem messageEvent_reply_discarded {f : State → State} (hpin : s.resetPin = .released) (hstate : s.links[n].state.session = false) :
    messageEvent n true s (fun s => s.replyChannelEvent n f) = .next (s.updLink n LinkUnit.discard) := by
  rw [messageEvent_released _ _ _ hpin, State.replyChannelEvent, if_neg (by rw [hstate]; decide)]

/-- In a session a message of the reply channel is taken (R143). -/
theorem messageEvent_reply_taken {f : State → State} (hpin : s.resetPin = .released)
    (hstate : s.links[n].state ∈ [LinkState.online, .drainingSettling, .drainingSweeping]) :
    messageEvent n true s (fun s => s.replyChannelEvent n f) = .next (f s) := by
  rw [messageEvent_released _ _ _ hpin, State.replyChannelEvent, if_pos (LinkState.session_of_mem hstate)]

/-- The event of a message of the reply channel that fails the form test. -/
theorem exec_failing_reply {x : MalformedMsg} (hfails : failsForm x = true) (hchannel : x.channel = .reply) (hpin : s.resetPin = .released) :
    exec (.messageFailingFormTest n (.arriving x)) s = messageEvent n true s (fun s => s.replyChannelEvent n (State.takeCause n (formFault x))) := by
  refine (if_pos hfails).trans ?_
  rw [messageEvent_released _ _ _ hpin, messageEvent_released _ _ _ hpin, hchannel]

/-- Every message of the reply channel is discarded and counted outside a session. -/
theorem replies_discarded (hpin : s.resetPin = .released) (hstate : s.links[n].state.session = false) :
    (∀ h l, exec (.gone n h l) s = .next (s.updLink n LinkUnit.discard) ∧ exec (.clean n h l) s = .next (s.updLink n LinkUnit.discard))
      ∧ (∀ m, exec (.dirty n m) s = .next (s.updLink n LinkUnit.discard))
      ∧ (∀ h, exec (.grantAck n h) s = .next (s.updLink n LinkUnit.discard))
      ∧ ∀ x, failsForm x = true → x.channel = .reply →
        exec (.messageFailingFormTest n (.arriving x)) s = .next (s.updLink n LinkUnit.discard) :=
  ⟨fun _ _ => ⟨messageEvent_reply_discarded hpin hstate, messageEvent_reply_discarded hpin hstate⟩,
    fun _ => messageEvent_reply_discarded hpin hstate, fun _ => messageEvent_reply_discarded hpin hstate,
    fun _ hfails hchannel => (exec_failing_reply hfails hchannel hpin).trans (messageEvent_reply_discarded hpin hstate)⟩

/-- Without a Hello held, everything but a Hello is discarded in OFFLINE (R142). -/
theorem State.takeMessage_offline_discarded (hstate : s.links[n].state = .offline) (hheld : s.links[n].heldHello = none)
    (hhello : ∀ h, m ≠ .hello h) : s.takeMessage n m = s.updLink n LinkUnit.discard := by
  rw [State.takeMessage_of_offline hstate]
  cases m with
  | hello h => exact absurd rfl (hhello h)
  | _ => simp only [State.takeOffline, hheld]

/-- With a Hello held, a tagged message is refused in OFFLINE (R134). -/
theorem State.takeMessage_offline_refused {tag : Tag} (hstate : s.links[n].state = .offline) (hheld : s.links[n].heldHello ≠ none)
    (htag : m.tag = some tag) :
    s.takeMessage n m = s.updLink n fun u => ({ u with reservations := u.reservations + 1 }).push (.final (.refused tag .notOnline)) := by
  obtain ⟨c, hc⟩ := Option.ne_none_iff_exists'.1 hheld
  rw [State.takeMessage_of_offline hstate]
  cases m with
  | hello h => cases htag
  | _ => simp only [State.takeOffline, hc, htag]

/-- With a Hello held, an untagged message other than a Hello is discarded in OFFLINE (R134, R210). -/
theorem State.takeMessage_offline_untagged (hstate : s.links[n].state = .offline) (htag : m.tag = none) (hhello : ∀ h, m ≠ .hello h) :
    s.takeMessage n m = s.updLink n LinkUnit.discard := by
  rw [State.takeMessage_of_offline hstate]
  cases m with
  | hello h => exact absurd rfl (hhello h)
  | _ => cases hheld : s.links[n].heldHello <;> simp only [State.takeOffline, hheld, htag]

/-- Settles O12: on the request channel by the link state, on the reply channel because there is no session. -/
theorem discardedAndRefusedMessages : Obligations.DiscardedAndRefusedMessages := by
  unfold Obligations.DiscardedAndRefusedMessages
  refine ⟨fun n s hpin hstate => ⟨fun hchannel m hhello hmalformed => ?_, ?_⟩, fun n m s hstate hheld => ⟨fun tag htag => ?_, fun hkind => ?_⟩,
    fun n s hpin hstate _ => replies_discarded hpin (by rw [hstate]; rfl)⟩
  · have htakes : s.links[n].canTake m = true := by
      obtain hfenced | ⟨hoffline, hheld⟩ := hstate
      · exact LinkUnit.canTake_of_fenced hfenced m
      · exact (LinkUnit.canTake_iff _ _).2 fun ⟨_, _, h⟩ => h.elim (fun h => by rw [hoffline] at h; revert h; decide) fun h => h.2 hheld
    rw [exec_command hpin hmalformed, if_pos (by rw [hchannel, htakes]; rfl)]
    obtain hfenced | ⟨hoffline, hheld⟩ := hstate
    · rw [State.takeMessage_of_fenced hfenced]; rfl
    · rw [State.takeMessage_offline_discarded hoffline hheld hhello]; rfl
  · exact replies_discarded hpin (hstate.elim LinkState.not_session_of_fenced fun h => by rw [h.1]; rfl)
  · rw [State.takeMessage_offline_refused hstate hheld htag]
    exact State.updLink_congr rfl
  · obtain rfl | rfl | ⟨x, rfl⟩ := hkind
    · exact State.takeMessage_offline_untagged hstate rfl fun _ h => nomatch h
    · exact State.takeMessage_offline_untagged hstate rfl fun _ h => nomatch h
    · exact State.takeMessage_offline_untagged hstate rfl fun _ h => nomatch h

/-- Settles O13: on either channel the message is a fence cause with the fault that R210 gives. -/
theorem aMalformedMessageFencesTheAgent : Obligations.AMalformedMessageFencesTheAgent := by
  unfold Obligations.AMalformedMessageFencesTheAgent
  intro n m s hpin hfails hstate hchannel
  cases hm : m.channel with
  | request =>
    refine (exec_command (m := .malformed m) hpin fun x hx => ?_).trans (congrArg _ ?_)
    · cases hx; exact ⟨hm, hfails⟩
    · rw [if_pos (by rw [hchannel hm, LinkUnit.canTake_of_untagged rfl]; rfl), State.takeMessage_of_session (LinkState.session_of_mem hstate),
        State.takeInSession_of_untagged rfl, ← hm]
      rfl
  | reply =>
    rw [exec_failing_reply hfails hm hpin, messageEvent_reply_taken hpin hstate, ← hm]
    rfl

end

end Sys2Proof.Machine

/-!
The reply channel, the fence causes, the deliveries, and what a link unit takes from the slices, the quiesce controller and the memory
channel (Chapter 7; R143 to R147, R149 to R158).
-/

namespace Sys2Proof.Machine

section
variable {n : Agent} {sid : SliceId} {s : State} {u : LinkUnit}

/-! ## Replies (R143 to R145) -/

theorem LinkUnit.queueReplyRetry_eq (h : Handle) (u : LinkUnit) : u.queueReplyRetry h =
    { u with responses := if .replyRetry h ∈ u.responses then u.responses else u.responses ++ [.replyRetry h] } := by
  by_cases hm : Outbound.replyRetry h ∈ u.responses
  · rw [LinkUnit.queueReplyRetry_of_mem hm, if_pos hm]
  · rw [LinkUnit.queueReplyRetry_of_not_mem hm, if_neg hm]
    rfl

/-- Settles O14: a passed reply is forwarded, a failed one is the data check's, and a GrantAck may settle a drain. -/
theorem repliesAreForwardedByHandle : Obligations.RepliesAreForwardedByHandle := by
  unfold Obligations.RepliesAreForwardedByHandle
  refine ⟨?_, ?_⟩
  · intro n s hpin hstate sent
    refine ⟨fun h line => ⟨messageEvent_reply_taken hpin hstate, messageEvent_reply_taken hpin hstate⟩,
      fun m => ⟨fun hcheck => ?_, fun hcheck hlt => ?_, fun hcheck heq => ?_⟩⟩
    · refine (messageEvent_reply_taken hpin hstate).trans (congrArg _ ?_)
      rw [State.takeDirty_of_check_eq n s hcheck, State.updLink_updLink]
      rfl
    · refine (messageEvent_reply_taken hpin hstate).trans (congrArg _ ?_)
      rw [State.takeDirty_of_check_ne n s hcheck, State.dataCheckFailed_of_lt hlt]
      exact State.updLink_congr (LinkUnit.queueReplyRetry_eq _ _)
    · refine (messageEvent_reply_taken hpin hstate).trans (congrArg _ ?_)
      rw [State.takeDirty_of_check_ne n s hcheck, State.dataCheckFailed_of_eq heq]
      rfl
  · intro n h s hpin hstate sent settles
    have htaken : exec (.grantAck n h) s = .next (s.updLink n fun u => (sent u).settleDrain) := messageEvent_reply_taken hpin hstate
    refine ⟨fun hunsettled => ?_, fun ⟨hsettling, htags, hconfirm⟩ => ?_⟩
    · rw [htaken]
      exact congrArg _ (State.updLink_congr (LinkUnit.settleDrain_of_unsettled (u := sent s.links[n]) hunsettled))
    · rw [htaken]
      exact congrArg _ (State.updLink_congr (LinkUnit.settleDrain_of_settled (u := sent s.links[n]) hsettling htags hconfirm))

/-! ## Fence causes (R152, R156 to R158) -/

theorem State.takeCause_of_session {f : FaultRecord} (h : s.links[n].state ∈ [LinkState.online, .drainingSettling, .drainingSweeping]) :
    s.takeCause n f = (s.updLink n (LinkUnit.fence f)).raiseAlert (alertFault n) := by
  rw [State.takeCause, if_pos (LinkState.session_of_mem h)]

theorem State.takeCause_of_fenced {f : FaultRecord} (h : s.links[n].state ∈ [LinkState.fencedSweeping, .fencedSwept]) :
    s.takeCause n f = (s.updLink n (LinkUnit.countFault f)).raiseAlert (alertFault n) := by
  rw [State.takeCause, if_neg (by rw [LinkState.not_session_of_fenced h]; decide), if_pos (LinkState.fenced_of_mem h)]

theorem State.takeCause_of_offline {f : FaultRecord} (h : s.links[n].state = .offline) : s.takeCause n f = s := by
  rw [State.takeCause, h]
  rfl

/-- Counting stays at the largest value. -/
theorem satInc_eq (c : BitVec 8) : satInc c = if c = 255#8 then 255#8 else c + 1 := by
  by_cases h : c = 255#8
  · rw [if_pos h, h]; rfl
  · rw [if_neg h]
    exact if_neg h

/-- Settles O15, by the link state. -/
theorem aFenceCauseIsTaken : Obligations.AFenceCauseIsTaken := by
  unfold Obligations.AFenceCauseIsTaken
  intro n f s counted alerted
  have hcounted (u : LinkUnit) : u.countFault f = counted u := by simp only [LinkUnit.countFault, satInc_eq, counted]
  refine ⟨fun h => ?_, fun h => ?_, fun h => State.takeCause_of_offline h⟩
  · rw [State.takeCause_of_session h]
    refine congrArg alerted (State.updLink_congr ?_)
    simp only [LinkUnit.fence, hcounted]
    rfl
  · rw [State.takeCause_of_fenced h]
    exact congrArg alerted (State.updLink_congr (hcounted _))

/-! ## What the link unit takes -/

/-- The front message of a slice's path, if its event takes its kind (R131). -/
theorem State.takeFromSlice_of {f : LinkMsg → Option (State → State)} {g : State → State} {m : LinkMsg} {ms : List LinkMsg}
    (hpath : s.slices[sid].toLink[n] = m :: ms) (hf : f m = some g) : s.takeFromSlice n sid f = g (s.afterLinkMsg sid n ms) := by
  have hfront : s.frontToLink sid n = some m := by rw [State.frontToLink, hpath]; rfl
  have hpop : s.popToLink sid n = s.afterLinkMsg sid n ms := State.updSlice_congr (by rw [hpath]; rfl)
  rw [State.takeFromSlice, hfront, Option.bind_some, hf, hpop]

/-- The event that takes the front message of a slice's path. -/
theorem whileReleased_takeFromSlice {f : LinkMsg → Option (State → State)} {g : State → State} {m : LinkMsg} {ms : List LinkMsg}
    (hpin : s.resetPin = .released) (hpath : s.slices[sid].toLink[n] = m :: ms) (hf : f m = some g) :
    whileReleased s (State.takeFromSlice n sid f) = .next (g (s.afterLinkMsg sid n ms)) := by
  rw [whileReleased_of_released _ _ hpin, State.takeFromSlice_of hpath hf]

/-- The first message of its kind from the quiesce controller (log 19). -/
theorem whileReleased_takeFromController {m : ControllerMsg} {pre post : List ControllerMsg} {f : State → State} (hpin : s.resetPin = .released)
    (hpath : s.links[n].fromController = pre ++ m :: post) (hpre : m ∉ pre) :
    whileReleased s (State.takeFromController n m f) = .next (f (s.updLink n fun u => { u with fromController := pre ++ post })) := by
  have htake : takeFirst (fun x => decide (x = m)) s.links[n].fromController = some (m, pre ++ post) := by
    rw [hpath]
    exact takeFirst_append_cons post (fun x hx => decide_eq_false fun e => hpre (e ▸ hx)) (decide_eq_true rfl)
  rw [whileReleased_of_released _ _ hpin, State.takeFromController, htake]

theorem execLinkDown_of_session (hpin : s.resetPin = .released)
    (h : s.links[n].state ∈ [LinkState.online, .drainingSettling, .drainingSweeping]) :
    execLinkDown n s = .next (s.takeCause n ⟨.linkLost, none, none, none⟩) := by
  rw [execLinkDown, whileReleased_of_released _ _ hpin]
  revert h
  cases s.links[n].state <;> simp

theorem execLinkDown_of_offline (hpin : s.resetPin = .released) (h : s.links[n].state = .offline) :
    execLinkDown n s = .next (s.updLink n LinkUnit.dropSession) := by
  rw [execLinkDown, whileReleased_of_released _ _ hpin, h]

theorem execLinkDown_of_fenced (hpin : s.resetPin = .released) (h : s.links[n].state ∈ [LinkState.fencedSweeping, .fencedSwept]) :
    execLinkDown n s = .next s := by
  rw [execLinkDown, whileReleased_of_released _ _ hpin]
  revert h
  cases s.links[n].state <;> simp

/-- The link-control messages, in the statement's form. -/
theorem Outbound.not_isControl (m : Outbound) : (!m.isControl) = match m with
    | .control _ => false
    | _ => true := by
  cases m <;> rfl

/-- Settles O16: link-down by the link state; each report takes its message and is a cause. -/
theorem reportsBringTheirCause : Obligations.ReportsBringTheirCause := by
  unfold Obligations.ReportsBringTheirCause
  intro n s hpin
  refine ⟨fun h => execLinkDown_of_session hpin h, fun h => ?_, fun h => execLinkDown_of_fenced hpin h, fun sid line ms hpath => ?_,
    fun sid c code line tag ms hpath => ?_, fun pre post hpath hpre => ?_⟩
  · refine (execLinkDown_of_offline hpin h).trans (congrArg _ (State.updLink_congr ?_))
    have hfilter := List.filter_congr (l := s.links[n].responses) fun m _ => Outbound.not_isControl m
    exact congrArg (fun l => { s.links[n] with heldHello := none, responses := l }) hfilter
  · exact whileReleased_takeFromSlice hpin hpath rfl
  · exact whileReleased_takeFromSlice hpin hpath rfl
  · exact whileReleased_takeFromController hpin hpath hpre

/-! ## Deliveries (R136, R146, R147) -/

theorem LinkState.session_eq_false_iff {x : LinkState} : x.session = false ↔ x ∈ [LinkState.offline, .fencedSweeping, .fencedSwept] := by
  cases x <;> simp [LinkState.session]

/-- The handle of a grant, by the kinds of response. -/
theorem Response.grantHandle_isSome (r : Response) : r.grantHandle.isSome = true ↔
    ∃ h : Handle, (∃ t d, r = .grantShared t h d) ∨ (∃ t d, r = .grantOwned t h d) ∨ ∃ t, r = .grantPromote t h := by
  cases r <;> simp [Response.grantHandle]

theorem LinkUnit.depart_final {r : Response} {ms : List Outbound} (hresponses : u.responses = .final r :: ms) :
    u.depart = if r.grantHandle.isSome && !u.state.session then u else { u with responses := ms, reservations := u.reservations - 1 } := by
  rw [LinkUnit.depart, hresponses]

theorem LinkUnit.depart_control {c : Control} {ms : List Outbound} (hresponses : u.responses = .control c :: ms) :
    u.depart = { u with responses := ms } := by rw [LinkUnit.depart, hresponses]

theorem LinkUnit.depart_replyRetry {h : Handle} {ms : List Outbound} (hresponses : u.responses = .replyRetry h :: ms) :
    u.depart = { u with responses := ms } := by rw [LinkUnit.depart, hresponses]

/-- The link unit after a final response is in its tag place, before the drain's conditions are tested (R140, R141). -/
def LinkUnit.responded (r : Response) (u : LinkUnit) : LinkUnit :=
  { u with
    responses := u.responses ++ [.final r]
    tags := u.tags.set r.tag false
    retries := if r.isRetry then satInc u.retries else u.retries
    confirm := match r.grantHandle with
      | some h => if h ∈ u.confirm then u.confirm else u.confirm ++ [h]
      | none => u.confirm }

theorem LinkUnit.takeResponse_eq (r : Response) (u : LinkUnit) : u.takeResponse r = (u.responded r).settleDrain.farewell := by
  cases r <;> rfl

/-! ## Farewell (R150) -/

theorem LinkUnit.farewell_of_done (hstate : u.state = .drainingSweeping) (hreported : u.slicesReported = 15#4)
    (htags : ∀ t : Tag, u.tags[t] = false) : u.farewell = { u with
      state := .offline
      cls := .unset
      heldHello := none
      confirm := []
      slicesReported := 0#4
      responses := u.responses ++ [.control .farewell]
      reports := u.reports ++ [⟨.offline, .unset⟩] } := by
  rw [LinkUnit.farewell, if_pos (by simp [hstate, hreported, SliceSet.all, (LinkUnit.tagsFree_iff u).2 htags])]
  rfl

theorem LinkUnit.farewell_of_not (h : ¬(u.state = .drainingSweeping ∧ u.slicesReported = 15#4 ∧ ∀ t : Tag, u.tags[t] = false)) :
    u.farewell = u := by
  rw [LinkUnit.farewell, if_neg]
  intro hdone
  simp only [Bool.and_eq_true, decide_eq_true_eq] at hdone
  obtain ⟨⟨hstate, hreported⟩, htags⟩ := hdone
  exact h ⟨hstate, hreported, (LinkUnit.tagsFree_iff u).1 htags⟩

/-- A final response that finds no drain changes nothing else. -/
theorem LinkUnit.takeResponse_of_online {r : Response} (h : u.state = .online) : u.takeResponse r = u.responded r := by
  have hsettle : (u.responded r).settleDrain = u.responded r :=
    LinkUnit.settleDrain_of_unsettled fun ⟨hs, _⟩ => by rw [LinkUnit.responded, h] at hs; cases hs
  rw [LinkUnit.takeResponse_eq, hsettle, LinkUnit.farewell_of_not fun ⟨hs, _⟩ => by rw [LinkUnit.responded, h] at hs; cases hs]

/-- The tags after one has been released, where it was the last. -/
theorem LinkUnit.tags_released {t : Tag} (h : ∀ t' : Tag, t' ≠ t → u.tags[t'] = false) (t' : Tag) : (u.tags.set t false)[t'] = false := by
  by_cases ht : t' = t
  · subst ht; simp
  · have hne : t.val ≠ t'.val := fun e => ht (Fin.ext e.symm)
    rw [Fin.getElem_fin, Vector.getElem_set_ne _ _ hne]
    exact h t' ht

/-- An event that changes LUn alone. -/
theorem whileReleased_updLink {f g : LinkUnit → LinkUnit} (hpin : s.resetPin = .released) (h : f s.links[n] = g s.links[n]) :
    whileReleased s (fun s => s.updLink n f) = .next (s.updLink n g) := by
  rw [whileReleased_of_released _ _ hpin, State.updLink_congr h]

/-- LUn changed by nothing. -/
theorem State.updLink_of_same {f : LinkUnit → LinkUnit} (h : f s.links[n] = s.links[n]) : s.updLink n f = s :=
  (State.updLink_congr (g := fun u => u) h).trans (State.updLink_id s n)

/-- An event without an effect at LUn. -/
theorem whileReleased_updLink_same {f : LinkUnit → LinkUnit} (hpin : s.resetPin = .released) (h : f s.links[n] = s.links[n]) :
    whileReleased s (fun s => s.updLink n f) = .next s := by
  rw [whileReleased_of_released _ _ hpin, State.updLink_of_same h]

/-- Settles O17: each event by what stands at the front of its path, and by the link state. -/
theorem deliveriesAndResponses : Obligations.DeliveriesAndResponses := by
  unfold Obligations.DeliveriesAndResponses
  refine ⟨fun n s hpin => ⟨?final, fun c ms h => ?control, fun k ms h => ?retry, fun p ps h hstate => ?probe, fun hstate => ?noProbe⟩,
    fun n sid s hpin => ⟨fun r ms hpath => ⟨fun hstate => ?taken, fun hstate => ?discarded⟩, fun p ms hpath => ⟨fun hstate => ?queued, fun hstate => ?dropped⟩⟩⟩
  case final =>
    intro r ms h grant
    have hgrant : r.grantHandle.isSome = true ↔ grant := r.grantHandle_isSome
    refine ⟨fun hleaves => whileReleased_updLink hpin ?_, fun hstate hg => whileReleased_updLink_same hpin ?_⟩
    · rw [LinkUnit.depart_final h, if_neg]
      rw [Bool.and_eq_true, hgrant]
      rintro ⟨hg, hs⟩
      exact hleaves.elim (fun hin => by rw [LinkState.session_of_mem hin] at hs; cases hs) fun hn => hn hg
    · rw [LinkUnit.depart_final h, if_pos]
      rw [Bool.and_eq_true, hgrant, LinkState.not_session_of_mem hstate]
      exact ⟨hg, rfl⟩
  case control => exact whileReleased_updLink hpin (LinkUnit.depart_control h)
  case retry => exact whileReleased_updLink hpin (LinkUnit.depart_replyRetry h)
  case probe =>
    refine whileReleased_updLink hpin ?_
    rw [if_pos (LinkState.session_of_mem hstate), h]
    rfl
  case noProbe => exact whileReleased_updLink_same hpin (if_neg (by rw [LinkState.not_session_of_mem hstate]; decide))
  case taken =>
    refine (whileReleased_takeFromSlice hpin hpath rfl).trans (congrArg _ (State.updLink_congr ?_))
    have hlink : (s.afterLinkMsg sid n ms).links[n].state = .online := hstate
    refine (if_pos (by rw [hlink]; rfl)).trans ((LinkUnit.takeResponse_of_online hlink).trans ?_)
    cases r <;> rfl
  case discarded =>
    refine (whileReleased_takeFromSlice hpin hpath rfl).trans (congrArg _ (State.updLink_congr ?_))
    have hlink : (s.afterLinkMsg sid n ms).links[n].state.session = false := LinkState.not_session_of_mem hstate
    refine (if_neg (by rw [hlink]; decide)).trans ((LinkUnit.countRetry_eq _ _).trans ?_)
    cases r <;> rfl
  case queued =>
    refine (whileReleased_takeFromSlice hpin hpath rfl).trans (congrArg _ (State.updLink_congr ?_))
    exact if_pos (LinkState.session_of_mem hstate)
  case dropped =>
    refine (whileReleased_takeFromSlice hpin hpath rfl).trans (congrArg _ (State.updLink_of_same ?_))
    exact if_neg (by rw [show (s.afterLinkMsg sid n ms).links[n].state.session = false from LinkState.not_session_of_mem hstate]; decide)

/-- Settles O18: the settling condition and Farewell's conditions decide each report. -/
theorem drainAndFenceReportsAreTaken : Obligations.DrainAndFenceReportsAreTaken := by
  unfold Obligations.DrainAndFenceReportsAreTaken
  refine ⟨fun n sid ms s hpin => ⟨fun r hpath hstate hconfirm hgrant htags => ?settles, fun t hpath hstate hreported htags => ?last, ?drained⟩, ?fenced⟩
  case settles =>
    refine (whileReleased_takeFromSlice hpin hpath rfl).trans (congrArg _ (State.updLink_congr ?_))
    have hresponded : ((s.links[n].responded r).settleDrain) = _ := LinkUnit.settleDrain_of_settled (u := s.links[n].responded r) hstate
      (LinkUnit.tags_released htags) (by simp only [LinkUnit.responded, hgrant]; exact hconfirm)
    have hstays (v : LinkUnit) (hv : v.slicesReported = 0#4) : v.farewell = v :=
      LinkUnit.farewell_of_not fun ⟨_, h, _⟩ => by rw [hv] at h; revert h; decide
    refine (if_pos (show s.links[n].state.session = true by rw [hstate]; rfl)).trans ?_
    refine (LinkUnit.takeResponse_eq _ s.links[n]).trans ?_
    rw [hresponded, hstays _ rfl]
    simp only [LinkUnit.responded, hgrant]
    rfl
  case last =>
    refine (whileReleased_takeFromSlice hpin hpath rfl).trans (congrArg _ (State.updLink_congr ?_))
    have hsettle : (s.links[n].responded (.returnDone t)).settleDrain = s.links[n].responded (.returnDone t) :=
      LinkUnit.settleDrain_of_unsettled fun ⟨hs, _⟩ => by rw [LinkUnit.responded, hstate] at hs; cases hs
    refine (if_pos (show s.links[n].state.session = true by rw [hstate]; rfl)).trans ?_
    refine (LinkUnit.takeResponse_eq _ s.links[n]).trans ?_
    rw [hsettle, LinkUnit.farewell_of_done (u := s.links[n].responded (.returnDone t)) hstate hreported (LinkUnit.tags_released htags)]
    simp [LinkUnit.responded, Response.tag, Response.isRetry, State.afterLinkMsg]
  case drained =>
    intro hpath reported
    refine ⟨fun hstate hall htags => ?_, fun hstate hmore => ?_, fun hstate => ?_⟩
    · refine (whileReleased_takeFromSlice hpin hpath rfl).trans (congrArg _ (State.updLink_congr ?_))
      refine (if_pos hstate).trans ?_
      exact LinkUnit.farewell_of_done (u := { s.links[n] with slicesReported := reported }) hstate hall htags
    · refine (whileReleased_takeFromSlice hpin hpath rfl).trans (congrArg _ (State.updLink_congr ?_))
      refine (if_pos hstate).trans (LinkUnit.farewell_of_not (u := { s.links[n] with slicesReported := reported }) ?_)
      rintro ⟨-, hall, htags⟩
      obtain hne | ⟨t, ht⟩ := hmore
      · exact hne hall
      · have hfree : s.links[n].tags[t] = false := htags t
        rw [hfree] at ht
        cases ht
    · refine (whileReleased_takeFromSlice hpin hpath rfl).trans (congrArg _ ?_)
      exact State.updLink_of_same (if_neg hstate)
  case fenced =>
    intro n sid ms s hpin hpath hstate reported
    refine ⟨fun hmore => ?_, fun hall => ?_⟩
    · refine (whileReleased_takeFromSlice hpin hpath rfl).trans (congrArg _ (State.updLink_congr ?_))
      exact (if_pos hstate).trans (if_neg hmore)
    · refine (whileReleased_takeFromSlice hpin hpath rfl).trans (congrArg _ (State.updLink_congr ?_))
      exact (if_pos hstate).trans (if_pos hall)

/-! ## From the quiesce controller and the memory channel -/

theorem State.execMemoryClearReport_of (hpin : s.resetPin = .released) (hreport : s.links[n].clearReport = true) :
    execMemoryClearReport n s = .next ((s.updLink n fun u => { u with clearReport := false }).answerHeldHello n) := by
  rw [execMemoryClearReport, whileReleased_of_released _ _ hpin, if_pos hreport]

/-- Settles O19: the message from the controller is found behind others, and the clear's report is answered by agent enable. -/
theorem controllerAndClearReports : Obligations.ControllerAndClearReports := by
  unfold Obligations.ControllerAndClearReports
  intro n s hpin
  refine ⟨?_, fun hreport => ?_⟩
  · intro pre post hpath hpre left
    have htaken : exec (.flushRequest n) s = .next (s.updLink n fun u => (left u).queueFlush) :=
      (whileReleased_takeFromController hpin hpath hpre).trans (congrArg _ (State.updLink_updLink s n left LinkUnit.queueFlush))
    refine ⟨fun hstate hnone => ?_, fun h => ?_⟩
    · refine htaken.trans (congrArg _ (State.updLink_congr (if_pos ?_)))
      rw [Bool.and_eq_true]
      exact ⟨LinkState.session_of_mem hstate, by simpa [left] using hnone⟩
    · refine htaken.trans (congrArg _ (State.updLink_congr (if_neg ?_)))
      rw [Bool.and_eq_true]
      rintro ⟨hsession, hnone⟩
      obtain hstate | hqueued := h
      · rw [show (left s.links[n]).state.session = false from LinkState.not_session_of_mem hstate] at hsession
        cases hsession
      · have hcontains : (left s.links[n]).responses.contains (.control .flushRequest) = true := List.contains_iff_mem.2 hqueued
        rw [hcontains] at hnone
        cases hnone
  · have htaken : exec (.memoryClearReport n) s = _ := State.execMemoryClearReport_of hpin hreport
    rw [htaken]
    refine ⟨fun hheld => congrArg _ ?_, fun c hheld => ⟨fun hdisabled => congrArg _ ?_, fun henabled => congrArg _ ?_⟩⟩
    · simp only [State.answerHeldHello, State.updLink_self, hheld]
    · simp only [State.answerHeldHello, State.updLink_self, hheld]
      rw [if_neg (by rw [State.enabled, State.updLink_mgmt, hdisabled]; decide), State.updLink_updLink]
      rfl
    · simp only [State.answerHeldHello, State.updLink_self, hheld]
      rw [if_pos (by rw [State.enabled, State.updLink_mgmt]; exact henabled), State.welcome, State.updLink_updLink]
      rfl

end

end Sys2Proof.Machine

/-!
The memory channel (Chapter 9): the check of a stored line with its repair and report (R176), the four operations (R177 to R180), and the
completion of the start-up clear (R183).
-/

namespace Sys2Proof.Machine

section
variable {l : LineAddr} {e : EccOutcome} {s : State}

/-! ## The check of a stored line (R176) -/

@[simp] theorem State.checkLine_links : (s.checkLine l e).links = s.links := by cases e <;> rfl

@[simp] theorem State.checkLine_slices : (s.checkLine l e).slices = s.slices := by cases e <;> rfl

@[simp] theorem State.checkLine_queue : (s.checkLine l e).mem.queue = s.mem.queue := by cases e <;> rfl

@[simp] theorem State.checkLine_completions : (s.checkLine l e).mem.completions = s.mem.completions := by cases e <;> rfl

theorem State.checkLine_corrected :
    (s.checkLine l e).mem.corrected = if e = .corrected then satInc s.mem.corrected else s.mem.corrected := by
  cases e <;> rfl

/-- A line found uncorrectable is counted, remembered and reported (R176, R182). -/
theorem State.checkLine_of_uncorrectable (h : eccUncorrectable e = true) :
    (s.checkLine l e).mem.uncorrectable = satInc s.mem.uncorrectable ∧ (s.checkLine l e).mem.lastUncorrectable = some l
      ∧ (s.checkLine l e).mgmt = { s.mgmt with alerts := s.mgmt.alerts ||| (1#19 <<< 18) } := by
  cases e with
  | good => cases h
  | corrected => cases h
  | uncorrectable bytes => exact ⟨rfl, rfl, rfl⟩

theorem State.checkLine_of_correctable (h : eccUncorrectable e = false) :
    (s.checkLine l e).mem.uncorrectable = s.mem.uncorrectable ∧ (s.checkLine l e).mgmt = s.mgmt := by
  cases e with
  | good => exact ⟨rfl, rfl⟩
  | corrected => exact ⟨rfl, rfl⟩
  | uncorrectable bytes => cases h

theorem State.checkLine_wf (h : Memory.wf s.mem.dram = true) : Memory.wf (s.checkLine l e).mem.dram = true := by
  cases e with
  | good => exact h
  | corrected => exact h
  | uncorrectable bytes => exact Memory.wf_writeLine _ _ _ _ h

/-- The repair stores no line but the one checked. -/
theorem State.checkLine_readByte_other (h : Memory.wf s.mem.dram = true) {a : Nat} (ha : a / 64 ≠ l.toNat) :
    (s.checkLine l e).mem.dram.readByte a = s.mem.dram.readByte a := by
  cases e with
  | good => rfl
  | corrected => rfl
  | uncorrectable bytes => exact Dram.readByte_writeLine_other _ _ _ h ha

theorem State.checkLine_marked_other (h : Memory.wf s.mem.dram = true) {k : Nat} (hk : k ≠ l.toNat) :
    (s.checkLine l e).mem.dram.marked k = s.mem.dram.marked k := by
  cases e with
  | good => rfl
  | corrected => rfl
  | uncorrectable bytes => exact Dram.marked_writeLine_other _ _ _ h hk

/-! ## What an operation of the memory channel leaves -/

/-- `t` is `s` but for the memory's counts and reports, the line stored at `l` and the bytes and mark of that line. -/
def State.StoresOnly (l : LineAddr) (s t : State) : Prop :=
  t.links = s.links ∧ t.slices = s.slices ∧ t.mem.completions = s.mem.completions ∧ Memory.wf t.mem.dram = true
    ∧ (∀ a, a / 64 ≠ l.toNat → t.mem.dram.readByte a = s.mem.dram.readByte a)
    ∧ ∀ k, k ≠ l.toNat → t.mem.dram.marked k = s.mem.dram.marked k

theorem State.StoresOnly.storeLine (h : Memory.wf s.mem.dram = true) (d : Poisoned) : s.StoresOnly l (s.storeLine l d) :=
  ⟨rfl, rfl, rfl, Memory.wf_writeLine _ _ _ _ h, fun _ ha => Dram.readByte_writeLine_other _ _ _ h ha,
    fun _ hk => Dram.marked_writeLine_other _ _ _ h hk⟩

theorem State.StoresOnly.checked (h : Memory.wf s.mem.dram = true) (d : Poisoned) :
    s.StoresOnly l ((s.checkLine l e).storeLine l d) := by
  obtain ⟨hlinks, hslices, hcompletions, hwf, hbyte, hmark⟩ :=
    State.StoresOnly.storeLine (l := l) (State.checkLine_wf (l := l) (e := e) h) d
  exact ⟨hlinks.trans State.checkLine_links, hslices.trans State.checkLine_slices, hcompletions.trans State.checkLine_completions, hwf,
    fun a ha => (hbyte a ha).trans (State.checkLine_readByte_other h ha),
    fun k hk => (hmark k hk).trans (State.checkLine_marked_other h hk)⟩

/-- A line stored whole holds its bytes and its mark. -/
theorem State.storeLine_reads (h : Memory.wf s.mem.dram = true) (d : Poisoned) :
    (s.storeLine l d).mem.dram.readLine l.toNat = d.bytes ∧ (s.storeLine l d).mem.dram.marked l.toNat = d.poison :=
  ⟨Dram.readLine_writeLine _ _ _ _ h, Dram.marked_writeLine_same _ _ _ _ h⟩

/-! ## The four operations (R177 to R180) -/

section
variable {sid : SliceId} {pre post : List QueuedOp} {h : Handle} {bytes : LineData} {mask : ByteMask}

theorem exec_read_of_oldest (hpin : s.resetPin = .released) (hclear : s.mem.dram.clearRunning = false)
    (hqueue : s.mem.queue = pre ++ ⟨.read l h, sid⟩ :: post) (hpre : ∀ q ∈ pre, q.op.line ≠ l) :
    exec (.read l e) s = .next ((s.updMem fun m => { m with queue := pre ++ post }).performRead l h e) := by
  refine (whileReleased_of_released _ _ hpin).trans (congrArg _ ?_)
  rw [State.perform_of_oldest hclear hqueue hpre rfl rfl]

theorem exec_mergeWrite_of_oldest (hpin : s.resetPin = .released) (hclear : s.mem.dram.clearRunning = false)
    (hqueue : s.mem.queue = pre ++ ⟨.mergeWrite l bytes mask, sid⟩ :: post) (hpre : ∀ q ∈ pre, q.op.line ≠ l) :
    exec (.mergeWrite l e) s = .next ((s.updMem fun m => { m with queue := pre ++ post }).performMerge l bytes mask e) := by
  refine (whileReleased_of_released _ _ hpin).trans (congrArg _ ?_)
  rw [State.perform_of_oldest hclear hqueue hpre rfl rfl]

theorem exec_poisonWrite_of_oldest (hpin : s.resetPin = .released) (hclear : s.mem.dram.clearRunning = false)
    (hqueue : s.mem.queue = pre ++ ⟨.poisonWrite l, sid⟩ :: post) (hpre : ∀ q ∈ pre, q.op.line ≠ l) :
    exec (.poisonWrite l e) s = .next ((s.updMem fun m => { m with queue := pre ++ post }).performPoison l e) := by
  refine (whileReleased_of_released _ _ hpin).trans (congrArg _ ?_)
  rw [State.perform_of_oldest hclear hqueue hpre rfl rfl]

end

end

/-- Settles O44: the three outcomes of the check, and the read that completes with what the check gave. -/
theorem aReadReturnsWhatTheCheckGave : Obligations.AReadReturnsWhatTheCheckGave := by
  unfold Obligations.AReadReturnsWhatTheCheckGave
  refine ⟨?_, ?_⟩
  · intro l s hwf d
    refine ⟨⟨rfl, rfl⟩, ⟨rfl, rfl⟩, fun bytes => ⟨rfl, d.writeLine l.toNat bytes true, rfl, ?_, ?_, ?_, ?_, ?_⟩⟩
    · exact Dram.readLine_writeLine _ _ _ _ hwf
    · exact Dram.marked_writeLine_same _ _ _ _ hwf
    · exact Memory.wf_writeLine _ _ _ _ hwf
    · exact fun a ha => Dram.readByte_writeLine_other _ _ _ hwf ha
    · exact fun k hk => Dram.marked_writeLine_other _ _ _ hwf hk
  · intro l h sid pre post ecc s hpin hclear hwf hqueue hpre d taken completes
    have hread : exec (.read l ecc) s = .next (taken.performRead l h ecc) := exec_read_of_oldest hpin hclear hqueue hpre
    refine ⟨?_, ?_, ?_⟩
    · rintro rfl
      exact hread
    · rintro rfl
      exact hread
    · rintro bytes rfl
      exact ⟨d.writeLine l.toNat bytes true, hread, Dram.readLine_writeLine _ _ _ _ hwf, Dram.marked_writeLine_same _ _ _ _ hwf,
        fun a ha => Dram.readByte_writeLine_other _ _ _ hwf ha, fun k hk => Dram.marked_writeLine_other _ _ _ hwf hk⟩

/-- A byte of a line that was read whole. -/
theorem Dram.readByte_of_readLine {d : Dram} {l : Nat} {bytes : LineData} (h : d.readLine l = bytes) (i : Fin 64) :
    d.readByte (l * 64 + i.val) = bytes[i] := by
  rw [← h, Dram.readLine, Fin.getElem_fin, Vector.getElem_ofFn]

/-- Settles O46: a full mask stores the bytes unchecked, and any other merges over what the check gave. -/
theorem aMergeWriteMergesTheLine : Obligations.AMergeWriteMergesTheLine := by
  unfold Obligations.AMergeWriteMergesTheLine
  intro l bytes mask sid pre post ecc s hpin hclear hwf hqueue hpre seen
  have hmerge := exec_mergeWrite_of_oldest (e := ecc) hpin hclear hqueue hpre
  let taken : State := s.updMem fun m => { m with queue := pre ++ post }
  have hwf' : Memory.wf taken.mem.dram = true := hwf
  by_cases hmask : mask = BitVec.allOnes 64
  · rw [show taken.performMerge l bytes mask ecc = taken.storeLine l ⟨bytes, false⟩ from if_pos hmask] at hmerge
    obtain ⟨hlinks, hslices, hcompletions, hcanonical, hbyte, hmark⟩ := State.StoresOnly.storeLine (l := l) hwf' ⟨bytes, false⟩
    obtain ⟨hline, hmarked⟩ := State.storeLine_reads (l := l) hwf' ⟨bytes, false⟩
    exact ⟨_, hmerge, rfl, hlinks, hslices, hcompletions, hcanonical, hbyte, hmark, fun _ => ⟨hline, hmarked, rfl, rfl, rfl⟩,
      fun hpartial => absurd hmask hpartial⟩
  · let merged : Poisoned := ⟨mergeBytes mask bytes seen.bytes, seen.poison⟩
    rw [show taken.performMerge l bytes mask ecc = (taken.checkLine l ecc).storeLine l merged from if_neg hmask] at hmerge
    obtain ⟨hlinks, hslices, hcompletions, hcanonical, hbyte, hmark⟩ := State.StoresOnly.checked (l := l) (e := ecc) hwf' merged
    obtain ⟨hline, hmarked⟩ := State.storeLine_reads (l := l) (State.checkLine_wf (l := l) (e := ecc) hwf') merged
    refine ⟨_, hmerge, State.checkLine_queue, hlinks, hslices, hcompletions, hcanonical, hbyte, hmark,
      fun hfull => absurd hfull hmask, fun _ => ⟨fun i => ?_, hmarked, State.checkLine_corrected,
        State.checkLine_of_uncorrectable, State.checkLine_of_correctable⟩⟩
    rw [Dram.readByte_of_readLine hline]
    simp only [merged, mergeBytes, Fin.getElem_fin, Vector.getElem_ofFn]

/-- Settles O47: the check's bytes are stored again, with the mark set. -/
theorem aPoisonWriteMarksTheLine : Obligations.APoisonWriteMarksTheLine := by
  unfold Obligations.APoisonWriteMarksTheLine
  intro l sid pre post ecc s hpin hclear hwf hqueue hpre
  let taken : State := s.updMem fun m => { m with queue := pre ++ post }
  have hwf' : Memory.wf taken.mem.dram = true := hwf
  let poisoned : Poisoned := ⟨(s.mem.dram.check l ecc).bytes, true⟩
  obtain ⟨hlinks, hslices, hcompletions, hcanonical, hbyte, hmark⟩ := State.StoresOnly.checked (l := l) (e := ecc) hwf' poisoned
  obtain ⟨hline, hmarked⟩ := State.storeLine_reads (l := l) (State.checkLine_wf (l := l) (e := ecc) hwf') poisoned
  exact ⟨(taken.checkLine l ecc).storeLine l poisoned, exec_poisonWrite_of_oldest hpin hclear hqueue hpre, State.checkLine_queue, hlinks,
    hslices, hcompletions, hcanonical, hline, hmarked, hbyte, hmark, State.checkLine_corrected, State.checkLine_of_uncorrectable,
    State.checkLine_of_correctable⟩

/-! ## The start-up clear (R183) -/

/-- The clear's end empties the pool of a DRAM in which nothing is stored. -/
theorem Dram.clearAll_reads {d : Dram} {lines : Nat} (hcells : d.cells = []) (hmarks : d.marks = []) :
    (∀ a, a / 64 < lines → (d.clearAll lines).readByte a = 0#8) ∧ ∀ k, k < lines → (d.clearAll lines).marked k = false := by
  have hcleared : ∀ k, k < lines → (d.clearAll lines).lineKnown k = true := fun k hk =>
    (Dram.lineKnown_clearTo d lines k).trans (by simp [hk])
  have hnoCells : (d.clearAll lines).cells = [] := by
    simp only [Dram.clearAll, Dram.clearTo]
    split <;> simp [hcells]
  have hnoMarks : (d.clearAll lines).marks = [] := by
    simp only [Dram.clearAll, Dram.clearTo]
    split <;> simp [hmarks]
  refine ⟨fun a ha => ?_, fun k hk => ?_⟩
  · rw [Dram.readByte, if_pos (hcleared _ ha), hnoCells]
    rfl
  · rw [Dram.marked, if_pos (hcleared _ hk), hnoMarks]
    rfl

theorem State.readRegister_quiesce (s : State) : s.readRegister 0x1C = s.mgmt.quiesceWord := rfl

/-- Bit 16 of offset 0x1C is the memory-ready item, which no other field of the register reaches (12.4). -/
theorem Mgmt.quiesceWord_bit16 {m : Mgmt} (h : m.memoryReady = true) : m.quiesceWord.getLsbD 16 = true := by
  rw [Mgmt.quiesceWord, h, BitVec.getLsbD_or]
  exact Bool.or_eq_true_iff.mpr (.inr rfl)

/-- Settles O48: the clear ends over a pool that holds nothing, and the management unit takes its report. -/
theorem theClearCompletes : Obligations.TheClearCompletes := by
  unfold Obligations.TheClearCompletes
  intro s hpin
  refine ⟨fun hclear hnothing => ⟨?_, s.mem.dram.clearAll s.poolLines, ?_⟩, fun hreport => ⟨?_, ?_⟩⟩
  · rw [State.clearDone, hclear]
    rfl
  · obtain ⟨hcells, hmarks, -⟩ := hnothing hclear
    obtain ⟨hzero, hunmarked⟩ := Dram.clearAll_reads (lines := s.poolLines) hcells hmarks
    exact ⟨(whileReleased_of_released _ _ hpin).trans (congrArg _ (if_pos hclear)), rfl, rfl, hzero, hunmarked⟩
  · exact (whileReleased_of_released _ _ hpin).trans (congrArg _ (if_pos hreport))
  · exact (congrArg (BitVec.getLsbD · 16) (State.readRegister_quiesce _)).trans (Mgmt.quiesceWord_bit16 rfl)

end Sys2Proof.Machine

/-!
The quiesce controller and the command engine (Chapters 10 and 11): FlushDones and link-state reports (R188 to R190), the agent commands
(R202), Quiesce and Resume (R187, R193, R194, R203), and the commands and outcomes of the engine (R201, R204, R205).
-/

namespace Sys2Proof.Machine

/-! ## Sets of agents built and walked in agent order -/

section
variable {α : Type}

theorem AgentSet.getLsbD_single (n m : Agent) : (AgentSet.single n).getLsbD m.val = decide (m = n) := by
  revert n m
  decide

theorem AgentSet.getLsbD_insert (a : AgentSet) (n m : Agent) :
    (AgentSet.insert a n).getLsbD m.val = (a.getLsbD m.val || decide (m = n)) := by
  rw [AgentSet.insert, BitVec.getLsbD_or, AgentSet.getLsbD_single]

/-- A set gathered over a list of agents holds those of them that pass. -/
theorem AgentSet.getLsbD_foldl_insert (p : Agent → Bool) (ns : List Agent) (a : AgentSet) (m : Agent) :
    (ns.foldl (fun a n => if p n then AgentSet.insert a n else a) a).getLsbD m.val = (a.getLsbD m.val || (decide (m ∈ ns) && p m)) := by
  induction ns generalizing a with
  | nil => simp
  | cons n ns ih =>
    rw [List.foldl_cons, ih]
    by_cases hm : m = n
    · subst hm
      cases hp : p m
      · simp
      · rw [if_pos rfl, AgentSet.getLsbD_insert]
        simp
    · cases hp : p n
      · simp [hm]
      · rw [if_pos rfl, AgentSet.getLsbD_insert]
        simp [hm]

theorem AgentSet.ext {a b : AgentSet} (h : ∀ n : Agent, a.getLsbD n = b.getLsbD n) : a = b :=
  BitVec.eq_of_getLsbD_eq fun i hi => h ⟨i, hi⟩

theorem AgentSet.mem_toList {a : AgentSet} {n : Agent} : n ∈ AgentSet.toList a ↔ a.getLsbD n = true := by
  simp [AgentSet.toList, AgentSet.mem]

theorem AgentSet.nodup_toList (a : AgentSet) : (AgentSet.toList a).Nodup := (List.nodup_finRange 8).filter _

/-- Places changed one by one over a list without repetition, seen at one place. -/
theorem getElem_foldl_set {k : Nat} (f : α → α) (ns : List (Fin k)) (v : Vector α k) (hns : ns.Nodup) (i : Fin k) :
    (ns.foldl (fun v n => v.set n (f v[n])) v)[i] = if i ∈ ns then f v[i] else v[i] := by
  induction ns generalizing v with
  | nil => rfl
  | cons n ns ih =>
    obtain ⟨hn, hns⟩ := List.nodup_cons.mp hns
    rw [List.foldl_cons, ih _ hns]
    by_cases hi : i = n
    · subst hi
      rw [if_neg hn, if_pos List.mem_cons_self]
      simp
    · have hne : n.val ≠ i.val := fun h => hi (Fin.ext h.symm)
      simp [hi, Vector.getElem_set_ne _ _ hne]

/-- The members of a set of agents changed one by one. -/
theorem foldl_set_toList (f : α → α) (a : AgentSet) (v : Vector α 8) :
    (AgentSet.toList a).foldl (fun v n => v.set n (f v[n])) v = Vector.ofFn fun n => if a.getLsbD n then f v[n] else v[n] := by
  refine Vector.ext fun i hi => ?_
  have h := getElem_foldl_set f (AgentSet.toList a) v (AgentSet.nodup_toList a) ⟨i, hi⟩
  simp only [AgentSet.mem_toList] at h
  rw [Vector.getElem_ofFn]
  exact h

end

/-- Messages to the members of a set reach their link units and change nothing else. -/
theorem State.tellAgents_eq (x : ControllerMsg) (a : AgentSet) (s : State) : s.tellAgents x a =
    { s with links := Vector.ofFn fun n => if a.getLsbD n then LinkUnit.fromQuiesce x s.links[n] else s.links[n] } := by
  have hfold (ns : List Agent) (s : State) : ns.foldl (fun s n => s.updLink n (LinkUnit.fromQuiesce x)) s =
      { s with links := ns.foldl (fun (v : Vector LinkUnit 8) (n : Agent) => v.set n (LinkUnit.fromQuiesce x v[n])) s.links } := by
    induction ns generalizing s with
    | nil => rfl
    | cons n ns ih => exact ih _
  rw [State.tellAgents, hfold, foldl_set_toList]

/-! ## The quiesce controller (R187 to R190) -/

section
variable {n : Agent} {s : State} {m : Mgmt}

theorem Mgmt.flushAwaits_iff : m.flushAwaits n = true ↔ m.quiesce.state = .flushing ∧ m.quiesce.flushPending.getLsbD n = true := by
  rw [Mgmt.flushAwaits, Bool.and_eq_true, decide_eq_true_iff]
  rfl

theorem Mgmt.leaveFlush_of_ne (h : m.quiesce.flushPending &&& ~~~(1#8 <<< n.val) ≠ 0#8) : m.leaveFlush n =
    { m with quiesce := { m.quiesce with flushPending := m.quiesce.flushPending &&& ~~~(1#8 <<< n.val) } } := if_neg h

theorem Mgmt.leaveFlush_of_eq (h : m.quiesce.flushPending &&& ~~~(1#8 <<< n.val) = 0#8) : m.leaveFlush n = m.enterSweeping := if_pos h

theorem exec_quiesceFlushDone {k : Nat} (hpin : s.resetPin = .released) (hdone : s.links[n].flushDones = k + 1) :
    exec (.quiesceFlushDone n) s = .next (
      if s.mgmt.flushAwaits n then (s.updLink n fun u => { u with flushDones := k }).updMgmt (Mgmt.leaveFlush n)
      else s.updLink n fun u => { u with flushDones := k, fromController := u.fromController ++ [.discard] }) := by
  rw [show exec (.quiesceFlushDone n) s = execQuiesceFlushDone n s from rfl, execQuiesceFlushDone, whileReleased_of_released _ _ hpin]
  simp only [hdone, State.updLink_mgmt, State.updLink_updLink]
  rfl

theorem exec_linkStateReport {r : LinkStatus} {rs : List LinkStatus} (hpin : s.resetPin = .released) (hreports : s.links[n].reports = r :: rs) :
    exec (.linkStateReport n) s = .next ((s.updLink n fun u => { u with reports := rs }).updMgmt fun m =>
      Mgmt.flushReport n r.state { m with linkCopy := m.linkCopy.set n r, alerts := m.alerts ||| (1#19 <<< n.val) }) := by
  rw [show exec (.linkStateReport n) s = execLinkStateReport n s from rfl, execLinkStateReport, whileReleased_of_released _ _ hpin]
  simp only [hreports]
  rfl

/-- The states whose report takes an agent out of the flush (R189). -/
theorem Mgmt.flushReport_of_not {r : LinkStatus}
    (h : ¬(m.quiesce.state = .flushing ∧ m.quiesce.flushPending.getLsbD n = true ∧ r.state ∈ [LinkState.fencedSweeping, .offline])) :
    m.flushReport n r.state = m := by
  refine if_neg fun hc => h ?_
  rw [Bool.and_eq_true, Mgmt.flushAwaits_iff] at hc
  obtain ⟨hstate, hflushing, hpending⟩ := hc
  exact ⟨hflushing, hpending, by simpa using hstate⟩

theorem Mgmt.flushReport_of {r : LinkStatus} (hflushing : m.quiesce.state = .flushing) (hpending : m.quiesce.flushPending.getLsbD n = true)
    (hstate : r.state ∈ [LinkState.fencedSweeping, .offline]) : m.flushReport n r.state = m.leaveFlush n := by
  refine if_pos ?_
  rw [Bool.and_eq_true, Mgmt.flushAwaits_iff]
  exact ⟨by simpa using hstate, hflushing, hpending⟩

end

/-- Settles O49: an awaited agent leaves the flush with its FlushDone or its report, and any other FlushDone is discarded. -/
theorem flushDoneAndLinkStateReports : Obligations.FlushDoneAndLinkStateReports := by
  unfold Obligations.FlushDoneAndLinkStateReports
  refine ⟨?_, ?_⟩
  · intro n s hpin
    refine ⟨?_, fun pre post hpath hpre => ?_⟩
    · intro k hdone q left taken
      have hexec := exec_quiesceFlushDone hpin hdone
      refine ⟨fun hflushing hpending hleft => ?_, fun hflushing hpending hleft => ?_, fun hnot => ?_⟩
      · rw [hexec, if_pos (Mgmt.flushAwaits_iff.mpr ⟨hflushing, hpending⟩)]
        exact congrArg _ (State.updMgmt_congr (Mgmt.leaveFlush_of_ne hleft))
      · rw [hexec, if_pos (Mgmt.flushAwaits_iff.mpr ⟨hflushing, hpending⟩)]
        exact congrArg _ (State.updMgmt_congr (Mgmt.leaveFlush_of_eq hleft))
      · rw [hexec, if_neg]
        rw [Mgmt.flushAwaits_iff]
        rintro ⟨hflushing, hpending⟩
        exact hnot.elim (fun h => h hflushing) fun h => by rw [hpending] at h; cases h
    · refine (whileReleased_takeFromController hpin hpath hpre).trans (congrArg _ ?_)
      rw [State.updLink_updLink]
      rfl
  · intro n r rs s hpin hreports q left copied taken leaves
    have hexec := exec_linkStateReport hpin hreports
    refine ⟨fun hnot => ?_, fun ⟨hflushing, hpending, hstate⟩ hleft => ?_, fun ⟨hflushing, hpending, hstate⟩ hleft => ?_⟩
    · exact hexec.trans (congrArg _ (State.updMgmt_congr (Mgmt.flushReport_of_not (m := copied s.mgmt) hnot)))
    · exact hexec.trans (congrArg _ (State.updMgmt_congr
        ((Mgmt.flushReport_of (m := copied s.mgmt) hflushing hpending hstate).trans (Mgmt.leaveFlush_of_ne hleft))))
    · exact hexec.trans (congrArg _ (State.updMgmt_congr
        ((Mgmt.flushReport_of (m := copied s.mgmt) hflushing hpending hstate).trans (Mgmt.leaveFlush_of_eq hleft))))

/-! ## Command writes (R201) -/

section
variable {s : State} {code : BitVec 4} {arg : BitVec 28} {f : State → State}

theorem whileReleased_commandWrite_idle (hpin : s.resetPin = .released) (hidle : s.mgmt.running = false) :
    whileReleased s (State.commandWrite code arg f) = .next (f (s.updMgmt (Mgmt.taken (arg ++ code)))) := by
  refine (whileReleased_of_released _ _ hpin).trans (congrArg _ (if_neg ?_))
  rw [State.setOffset_mgmt, hidle]
  decide

theorem whileReleased_commandWrite_running (hpin : s.resetPin = .released) (hrunning : s.mgmt.running = true) :
    whileReleased s (State.commandWrite code arg f) = .next (s.updMgmt fun m => { m with offset := 0x10#8, status := .busy }) :=
  (whileReleased_of_released _ _ hpin).trans (congrArg _ (if_pos hrunning))

theorem commandAgent_eq {n : Agent} (h : n.val = arg.toNat % 8) : commandAgent arg = n := by
  refine Fin.ext ?_
  rw [h, commandAgent, BitVec.val_toFin, BitVec.extractLsb'_toNat]
  rfl

end

/-- Settles O50: each command as LUn decides it, by the state of its link. -/
theorem agentCommandsAreDecidedAtTheLinkUnit : Obligations.AgentCommandsAreDecidedAtTheLinkUnit := by
  unfold Obligations.AgentCommandsAreDecidedAtTheLinkUnit
  intro arg n s hpin hidle harg taken answers
  have hagent := commandAgent_eq harg
  have hdetach : exec (.detach arg) s = .next ((taken 1).detachAt n) := hagent ▸ whileReleased_commandWrite_idle hpin hidle
  have hfence : exec (.fence arg) s = .next ((taken 2).fenceAt n) := hagent ▸ whileReleased_commandWrite_idle hpin hidle
  have hrelease : exec (.releaseFence arg) s = .next ((taken 3).releaseAt n) := hagent ▸ whileReleased_commandWrite_idle hpin hidle
  have hclear : exec (.clearFault arg) s = .next ((taken 4).clearFaultAt n) := hagent ▸ whileReleased_commandWrite_idle hpin hidle
  refine ⟨fun h => ?_, fun h => ?_, fun h => ?_, fun h => ?_, fun h => ?_, fun h => ?_, hclear⟩
  · exact hdetach.trans (congrArg _ (if_pos h))
  · exact hdetach.trans (congrArg _ (if_neg h))
  · exact hfence.trans (congrArg _ (if_pos (LinkState.session_of_mem h)))
  · refine hfence.trans (congrArg _ (if_neg ?_))
    rw [show (taken 2).links[n].state.session = false from LinkState.session_eq_false_iff.mpr h]
    decide
  · exact hrelease.trans (congrArg _ (if_pos h))
  · exact hrelease.trans (congrArg _ (if_neg h))

/-! ## Quiesce and Resume (R187, R193, R194, R203) -/

section
variable {s : State} {asked : AgentSet}

theorem Mgmt.flushSet_eq {m : Mgmt} (h : ∀ n : Agent, asked.getLsbD n = true ↔
    (m.linkCopy[n].state ∈ [LinkState.online, .drainingSettling, .drainingSweeping] ∧ m.linkCopy[n].cls = .caching)) :
    m.flushSet = asked := by
  refine AgentSet.ext fun n => ?_
  have hmem := AgentSet.getLsbD_foldl_insert (fun n => m.linkCopy[n].state.session && decide (m.linkCopy[n].cls = .caching))
    (List.finRange 8) 0#8 n
  rw [BitVec.getLsbD_zero, Bool.false_or, decide_eq_true (List.mem_finRange n), Bool.true_and] at hmem
  refine hmem.trans (Bool.eq_iff_iff.mpr ?_)
  rw [h n, Bool.and_eq_true, decide_eq_true_iff]
  refine and_congr_left fun _ => ?_
  cases m.linkCopy[n].state <;> decide

/-- A quiesce that asks agents for a flush (R187). -/
theorem State.startQuiesce_of_ne (hasked : s.mgmt.flushSet = asked) (hne : asked ≠ 0#8) : s.startQuiesce =
    { s with
      links := Vector.ofFn fun n =>
        if asked.getLsbD n then { s.links[n] with fromController := s.links[n].fromController ++ [.flushRequest] } else s.links[n]
      mgmt := { s.mgmt with quiesce :=
        ⟨.flushing, asked, some (s.now + 100 * s.mgmt.flushTimeout.toNat), s.mgmt.quiesce.number + 1#8, 0#4, .none⟩ } } := by
  simp only [State.startQuiesce]
  rw [hasked, if_neg hne, State.tellAgents_eq]
  rfl

/-- A quiesce that has no agent to ask begins its sweep (R187, R190). -/
theorem State.startQuiesce_of_eq (hasked : s.mgmt.flushSet = 0#8) : s.startQuiesce =
    s.updMgmt fun m => { m with
      quiesce := ⟨.sweeping, 0#8, none, m.quiesce.number + 1#8, 0#4, .none⟩
      cmdPath := m.cmdPath.map (· ++ [.sweepStart (m.quiesce.number + 1#8)]) } := by
  simp only [State.startQuiesce]
  rw [hasked, if_pos rfl]
  rfl

end

/-- Settles O51: the quiesce starts from NORMAL only, and Resume ends it from the state it stands in. -/
theorem quiesceAndResume : Obligations.QuiesceAndResume := by
  unfold Obligations.QuiesceAndResume
  refine ⟨?_, ?_⟩
  · intro arg asked s hpin hidle hset started
    have hexec : exec (.quiesce arg) s = .next (s.updMgmt (Mgmt.taken (arg ++ 5#4))).quiesceCommand :=
      whileReleased_commandWrite_idle hpin hidle
    have hasked : (s.updMgmt (Mgmt.taken (arg ++ 5#4))).mgmt.flushSet = asked := Mgmt.flushSet_eq (m := s.mgmt) hset
    refine ⟨fun hnormal hne => ?_, fun hnormal heq => ?_, fun hnot => ?_⟩
    · refine hexec.trans (congrArg _ ((if_pos hnormal).trans ?_))
      rw [State.startQuiesce_of_ne hasked hne]
      rfl
    · refine hexec.trans (congrArg _ ((if_pos hnormal).trans ?_))
      rw [State.startQuiesce_of_eq (hasked.trans heq)]
      rfl
    · exact hexec.trans (congrArg _ (if_neg hnot))
  · intro arg s hpin hidle q becomes aborted
    have hexec : exec (.resume arg) s = .next (s.updMgmt (Mgmt.taken (arg ++ 6#4))).resumeCommand :=
      whileReleased_commandWrite_idle hpin hidle
    have hstate : (s.updMgmt (Mgmt.taken (arg ++ 6#4))).mgmt.quiesce.state = q.state := rfl
    refine ⟨fun h => ?_, fun h => ?_, fun h => ?_, fun h => ?_⟩
    · refine hexec.trans (congrArg _ ?_)
      rw [State.resumeCommand, hstate, h]
      rfl
    · refine hexec.trans (congrArg _ ?_)
      rw [State.resumeCommand, hstate, h]
      rfl
    · refine hexec.trans (congrArg _ ?_)
      rw [State.resumeCommand, hstate, h, State.abortQuiesce, hstate, h]
      rfl
    · refine hexec.trans (congrArg _ ?_)
      rw [State.resumeCommand, hstate, h, State.abortQuiesce, hstate, h]
      rfl

/-! ## The command engine's outcomes (R201, R204, R205) -/

/-- The first in order that gives something. -/
theorem findSome?_of_first {α : Type} {k : Nat} {f : Fin k → Option α} {i : Fin k} {y : α} (hi : f i = some y) (hlt : ∀ j, j < i → f j = none) :
    (List.finRange k).findSome? f = some y := by
  have hgen (js : List (Fin k)) (hsorted : js.Pairwise (· < ·)) (hmem : i ∈ js) : js.findSome? f = some y := by
    induction js with
    | nil => cases hmem
    | cons j js ih =>
      obtain ⟨hj, hsorted⟩ := List.pairwise_cons.mp hsorted
      rcases List.mem_cons.mp hmem with rfl | hmem
      · simp [hi]
      · simp [hlt j (hj i hmem), ih hsorted hmem]
  exact hgen _ (List.pairwise_lt_finRange k) (List.mem_finRange i)

theorem findSome?_of_none {α : Type} {k : Nat} {f : Fin k → Option α} (h : ∀ j, f j = none) : (List.finRange k).findSome? f = none :=
  List.findSome?_eq_none_iff.mpr fun j _ => h j

section
variable {s : State}

theorem State.linkWithOutcome_of_first {n : Agent} {st : CommandStatus} (hn : s.links[n].outcome = some st)
    (hlt : ∀ m : Agent, m < n → s.links[m].outcome = none) : s.linkWithOutcome = some (n, st) :=
  findSome?_of_first (by rw [hn]; rfl) fun m hm => by rw [hlt m hm]; rfl

theorem State.linkWithOutcome_of_none (h : ∀ n : Agent, s.links[n].outcome = none) : s.linkWithOutcome = none :=
  findSome?_of_none fun m => by rw [h m]; rfl

theorem State.sliceWithOutcome_of_first {sid : SliceId} {o : CommandOutcome} {os : List CommandOutcome} (hsid : s.slices[sid].toEngine = o :: os)
    (hlt : ∀ k : SliceId, k < sid → s.slices[k].toEngine = []) : s.sliceWithOutcome = some (sid, o, os) :=
  findSome?_of_first (by rw [hsid]) fun k hk => by rw [hlt k hk]

theorem State.completeCommand_eq (st : CommandStatus) (res : Option InspectResult) (s : State) : s.completeCommand st res =
    s.updMgmt fun m => { Mgmt.completed st m with result := if res = none then m.result else res } := by
  cases res <;> rfl

theorem execCommandOutcome_of_released (hpin : s.resetPin = .released) : exec .commandOutcome s = .next (
    match s.linkWithOutcome with
    | some (n, st) => (s.updLink n fun u => { u with outcome := none }).completeCommand st none
    | none =>
      match s.sliceWithOutcome with
      | some (sid, o, os) => (s.updSlice sid fun x => { x with toEngine := os }).completeCommand o.status o.result
      | none => s) := congrArg Host.Outcome.next (if_pos hpin)

theorem commandDefined_eq_false {code : BitVec 4} (h : code = 0#4 ∨ 9 ≤ code.toNat) : commandDefined code = false := by
  rcases h with rfl | h
  · rfl
  · rw [commandDefined, decide_eq_false (show ¬code.toNat ≤ 8 by omega), Bool.and_false]

theorem exec_undefinedCommandCode {code : BitVec 4} (arg : BitVec 28) (h : code = 0#4 ∨ 9 ≤ code.toNat) :
    exec (.undefinedCommandCode code arg) s = whileReleased s (State.commandWrite code arg (State.completeCommand .notApplicable none)) :=
  if_neg (by rw [commandDefined_eq_false h]; decide)

theorem State.inRange_of_lt {l : LineAddr} (h : l.toNat < s.poolLines) : s.inRange l = true := decide_eq_true h

theorem State.inRange_of_le {l : LineAddr} (h : s.poolLines ≤ l.toNat) : ¬s.inRange l = true := fun hc =>
  absurd (of_decide_eq_true hc) (Nat.not_lt.mpr h)

end

/-- Settles O52: Inspect and Scrub go out or complete at once, a busy engine refuses every command, and an outcome ends the command. -/
theorem theCommandEngineCompletes : Obligations.TheCommandEngineCompletes := by
  unfold Obligations.TheCommandEngineCompletes
  refine ⟨?_, ?_, ?_⟩
  · intro line s hpin hidle sent
    have hinspect : exec (.inspect line) s = .next ((s.updMgmt (Mgmt.taken (line ++ 7#4))).lineCommand (.inspect line) line) :=
      whileReleased_commandWrite_idle hpin hidle
    have hscrub : exec (.scrub line) s = .next ((s.updMgmt (Mgmt.taken (line ++ 8#4))).lineCommand (.scrub line) line) :=
      whileReleased_commandWrite_idle hpin hidle
    refine ⟨fun hin => ⟨hinspect.trans ?_, hscrub.trans ?_⟩, fun hout => ⟨hinspect.trans ?_, hscrub.trans ?_⟩⟩
    · exact congrArg _ (if_pos (State.inRange_of_lt hin))
    · exact congrArg _ (if_pos (State.inRange_of_lt hin))
    · exact congrArg _ (if_neg (State.inRange_of_le hout))
    · exact congrArg _ (if_neg (State.inRange_of_le hout))
  · intro arg s hpin
    refine ⟨fun hrunning c hc => ?_, fun code hcode hidle => ?_⟩
    · rcases hc with hc | ⟨code, hcode, rfl⟩
      · fin_cases hc <;> exact whileReleased_commandWrite_running hpin hrunning
      · rw [exec_undefinedCommandCode arg hcode]
        exact whileReleased_commandWrite_running hpin hrunning
    · rw [exec_undefinedCommandCode arg hcode]
      exact whileReleased_commandWrite_idle hpin hidle
  · intro s hpin
    have hexec := execCommandOutcome_of_released hpin
    refine ⟨fun n st hn hlt => ?_, fun sid o os hsid hlinks hlt => ?_⟩
    · rw [hexec, State.linkWithOutcome_of_first hn hlt]
      rfl
    · rw [hexec, State.linkWithOutcome_of_none hlinks, State.sliceWithOutcome_of_first hsid hlt]
      exact congrArg Host.Outcome.next (State.completeCommand_eq _ _ _)

end Sys2Proof.Machine

/-!
The register window's writes and the port's transfers (R197 to R199, R207, R212), and the resets with their releases (R184, R208).
-/

namespace Sys2Proof.Machine

/-! ## Register writes (R197, R198, 12.4) -/

theorem registerWrite_noEffect {off : BitVec 8} (v : BitVec 32) (h : off ∉ [0x04#8, 0x08#8, 0x0C#8, 0x10#8]) :
    registerWrite off v = .registerWriteNoEffect off v := by
  simp only [List.mem_cons, List.not_mem_nil, or_false, not_or] at h
  obtain ⟨h04, h08, h0C, h10⟩ := h
  simp [registerWrite, offConfig, offAlertMask, offAlertStatus, offCommand, h04, h08, h0C, h10]

theorem registerWriteNoEffect_wf {off : BitVec 8} (v : BitVec 32) (h : off ∉ [0x04#8, 0x08#8, 0x0C#8, 0x10#8]) :
    (Instr.registerWriteNoEffect off v).wf = true := by
  simp only [List.mem_cons, List.not_mem_nil, or_false, not_or] at h
  obtain ⟨h04, h08, h0C, h10⟩ := h
  simp [Instr.wf, offConfig, offAlertMask, offAlertStatus, offCommand, h04, h08, h0C, h10]

/-- A command write is the command of its code, with the rest of the value as its argument. -/
theorem registerWrite_command (arg : BitVec 28) (code : BitVec 4) : registerWrite 0x10 (arg ++ code) = commandOf code arg := by
  have hcode : (arg ++ code).extractLsb' 0 4 = code := BitVec.extractLsb'_append_eq_right
  have harg : (arg ++ code).extractLsb' 4 28 = arg := BitVec.extractLsb'_append_eq_left
  rw [show registerWrite 0x10 (arg ++ code) = commandOf ((arg ++ code).extractLsb' 0 4) ((arg ++ code).extractLsb' 4 28) from rfl, hcode, harg]

theorem commandOf_undefined {code : BitVec 4} (arg : BitVec 28) (h : code = 0#4 ∨ 9 ≤ code.toNat) :
    commandOf code arg = .undefinedCommandCode code arg := by
  have hne (k : BitVec 4) (hpos : k ≠ 0#4) (hle : k.toNat ≤ 8) : code ≠ k := by
    rintro rfl
    rcases h with h | h
    · exact hpos h
    · omega
  rw [commandOf, if_neg (hne 1 (by decide) (by decide)), if_neg (hne 2 (by decide) (by decide)), if_neg (hne 3 (by decide) (by decide)),
    if_neg (hne 4 (by decide) (by decide)), if_neg (hne 5 (by decide) (by decide)), if_neg (hne 6 (by decide) (by decide)),
    if_neg (hne 7 (by decide) (by decide)), if_neg (hne 8 (by decide) (by decide))]

/-- Four data bytes, the first the least significant. -/
theorem fromBytesLE_four (b0 b1 b2 b3 : Byte) : fromBytesLE 32 [b0, b1, b2, b3] = b3 ++ b2 ++ b1 ++ b0 := by
  refine BitVec.eq_of_getLsbD_eq fun i hi => ?_
  have hlsb (b : Byte) (j : Nat) (hj : 8 ≤ j) : b.getLsbD j = false := BitVec.getLsbD_of_ge b j hj
  simp only [fromBytesLE, BitVec.getLsbD_append, BitVec.getLsbD_or, BitVec.getLsbD_shiftLeft, BitVec.getLsbD_setWidth, BitVec.getLsbD_zero]
  by_cases h8 : i < 8
  · simp [h8, hi]
  · by_cases h16 : i < 16
    · simp [h8, hi, hlsb b0 i (by omega), show i - 8 < 8 by omega, show i - 8 < 32 by omega]
    · by_cases h24 : i < 24
      · simp [h8, hi, hlsb b0 i (by omega), hlsb b1 (i - 8) (by omega), show i - 8 - 8 < 8 by omega, show ¬i - 8 < 8 by omega,
          show i - 8 < 32 by omega, show i - 8 - 8 < 32 by omega]
      · simp [h8, hi, hlsb b0 i (by omega), hlsb b1 (i - 8) (by omega), hlsb b2 (i - 8 - 8) (by omega), show ¬i - 8 - 8 < 8 by omega,
          show ¬i - 8 < 8 by omega, show i - 8 < 32 by omega, show i - 8 - 8 < 32 by omega, show i - 8 - 8 - 8 < 8 by omega,
          show i - 8 - 8 - 8 < 32 by omega]

/-! ## The port's transfers (R197) -/

section
variable {s : State} {a : BitVec 7}

theorem State.acknowledges_iff : s.acknowledges a = true ↔ s.resetPin = .released ∧ a = 0x4C#7 + s.addr.setWidth 7 := by
  rw [State.acknowledges, Bool.and_eq_true, decide_eq_true_iff, decide_eq_true_iff, State.portAddress]

theorem State.writeAcknowledges_of_not (h : s.acknowledges a = false) (k : Nat) : s.writeAcknowledges a k = List.replicate (k + 1) false := by
  simp [State.writeAcknowledges, h, List.replicate_succ, List.map_const']

/-- Of the bytes behind the address, the first five are acknowledged. -/
theorem map_range_lt_five (k : Nat) :
    (List.range k).map (fun j => decide (j < 5)) = List.replicate (min k 5) true ++ List.replicate (k - 5) false := by
  refine List.ext_getElem (by simp; omega) fun i hi _ => ?_
  simp only [List.length_map, List.length_range] at hi
  by_cases h : i < 5
  · rw [List.getElem_append_left (by simp; omega)]
    simp [h]
  · rw [List.getElem_append_right (by simp; omega)]
    simp [h]

theorem State.writeAcknowledges_of (h : s.acknowledges a = true) (k : Nat) :
    s.writeAcknowledges a k = List.replicate (min (k + 1) 6) true ++ List.replicate (k - 5) false := by
  have hmin : min (k + 1) 6 = min k 5 + 1 := by omega
  rw [State.writeAcknowledges, h, hmin, List.replicate_succ, List.cons_append]
  simp only [Bool.true_and]
  rw [map_range_lt_five]

theorem writeTransfer_short {off : BitVec 8} {data : List Byte} (h : data.length ∈ [1, 2, 3]) :
    writeTransfer (off :: data) = some (.shortWrite off data) := by
  match data with
  | [] => cases h with | tail _ h => cases h with | tail _ h => cases h with | tail _ h => cases h
  | [_] => rfl
  | [_, _] => rfl
  | [_, _, _] => rfl
  | _ :: _ :: _ :: _ :: _ => simp at h

theorem exec_shortWrite {off : BitVec 8} {data : List Byte} (hpin : s.resetPin = .released) (h : data.length ∈ [1, 2, 3]) :
    exec (.shortWrite off data) s = .next (s.updMgmt fun m => { m with offset := off }) := by
  have hlen : (decide (1 ≤ data.length) && decide (data.length ≤ 3)) = true := by
    simp only [List.mem_cons, List.not_mem_nil, or_false] at h
    rw [Bool.and_eq_true, decide_eq_true_iff, decide_eq_true_iff]
    omega
  exact (if_pos hlen).trans (whileReleased_of_released _ _ hpin)

theorem State.readTransfer_getElem? {k j : Nat} (hj : j < k) : (s.readTransfer k)[j]? =
    some (if j < 4 then (s.readRegister s.mgmt.offset).extractLsb' (8 * j) 8 else 0#8) := by
  simp [State.readTransfer, hj]

/-- An item stands whose mask flag is unmasked (R207). -/
theorem State.alertLow_iff : s.alertLow = true ↔ ∃ k : Fin 19, s.mgmt.alerts.getLsbD k = true ∧ s.mgmt.alertMask.getLsbD k = false := by
  have hbit (k : Fin 19) : (s.mgmt.alerts &&& ~~~s.mgmt.alertMask).getLsbD k = (s.mgmt.alerts.getLsbD k && !s.mgmt.alertMask.getLsbD k) := by
    rw [BitVec.getLsbD_and, BitVec.getLsbD_not, decide_eq_true k.isLt, Bool.true_and]
  rw [State.alertLow, bne_iff_ne]
  refine ⟨fun h => ?_, fun ⟨k, halert, hmask⟩ h => ?_⟩
  · by_contra hnone
    refine h (BitVec.eq_of_getLsbD_eq fun i hi => ?_)
    rw [hbit ⟨i, hi⟩, BitVec.getLsbD_zero, Bool.and_eq_false_iff]
    by_contra hc
    refine hnone ⟨⟨i, hi⟩, ?_⟩
    simpa using hc
  · have hzero := hbit k
    rw [h, BitVec.getLsbD_zero, halert, hmask] at hzero
    cases hzero

end

/-- Settles O53: each write's fields, each transfer by its address and length, and the alert pin. -/
theorem registerWritesTakeTheirFields : Obligations.RegisterWritesTakeTheirFields := by
  unfold Obligations.RegisterWritesTakeTheirFields
  refine ⟨?_, ?_, ?_, ⟨?_, ?_⟩, fun s => State.alertLow_iff⟩
  · exact fun v s hpin => ⟨congrArg _ (if_pos hpin), congrArg _ (if_pos hpin), congrArg _ (if_pos hpin)⟩
  · intro off s hpin moved
    exact ⟨whileReleased_of_released _ _ hpin, fun data hdata => exec_shortWrite hpin hdata,
      fun v hoff => (if_pos (registerWriteNoEffect_wf v hoff)).trans (whileReleased_of_released _ _ hpin)⟩
  · intro a s ours
    have hnot (h : ¬ours) : s.acknowledges a = false := Bool.eq_false_iff.mpr fun hc => h (State.acknowledges_iff.mp hc)
    have hours (h : ours) (bs : List Byte) : s.writeTransferTo a bs = writeTransfer bs := if_pos (State.acknowledges_iff.mpr h)
    refine ⟨fun k => ⟨fun h => State.writeAcknowledges_of_not (hnot h) k,
      fun h => State.writeAcknowledges_of (State.acknowledges_iff.mpr h) k⟩, fun bs h => ?_, fun off b0 b1 b2 b3 more h => ?_, fun off h => ?_,
      fun off data h hlen => ?_, fun k => ⟨?_, fun j hj hlow => ?_, fun j hj hhigh => ?_⟩⟩
    · exact if_neg (by rw [hnot h]; decide)
    · rw [hours h, ← fromBytesLE_four]
      rfl
    · exact (hours h _).trans rfl
    · exact (hours h _).trans (writeTransfer_short hlen)
    · simp [State.readTransfer]
    · rw [State.readTransfer_getElem? hj, if_pos hlow]
    · rw [State.readTransfer_getElem? hj, if_neg (by omega)]
  · exact fun v => ⟨rfl, rfl, rfl, fun off hoff => registerWrite_noEffect v hoff⟩
  · intro arg
    exact ⟨registerWrite_command _ _, registerWrite_command _ _, registerWrite_command _ _, registerWrite_command _ _,
      registerWrite_command _ _, registerWrite_command _ _, registerWrite_command _ _, registerWrite_command _ _,
      fun code hcode => (registerWrite_command _ _).trans (commandOf_undefined arg hcode)⟩

/-! ## The resets (R208) -/

/-- `c` is a message from agent n that comes from the link: it arrives on the request channel, or it is one of the reply channel's. -/
def Instr.FromLink (n : Agent) (c : Instr) : Prop :=
  (∃ m : ReqMsg, c = m.command n) ∨ (∃ h l, c = .gone n h l ∨ c = .clean n h l) ∨ (∃ m, c = .dirty n m) ∨ (∃ h, c = .grantAck n h)
    ∨ ∃ x, c = .messageFailingFormTest n (.arriving x)

section
variable {n : Agent} {s t : State}

theorem exec_failingForm {x : MalformedMsg} (h : failsForm x = true) :
    ∃ f, exec (.messageFailingFormTest n (.arriving x)) s = messageEvent n true s f := ⟨_, if_pos h⟩

/-- A message from the link is a received one. -/
theorem Instr.FromLink.exec_eq {c : Instr} (h : Instr.FromLink n c) (hwf : c.wf = true) : ∃ f, exec c s = messageEvent n true s f := by
  rcases h with ⟨m, rfl⟩ | ⟨h, l, rfl | rfl⟩ | ⟨m, rfl⟩ | ⟨h, rfl⟩ | ⟨x, rfl⟩
  · cases m with
    | malformed x => exact exec_failingForm hwf
    | hello m => exact ⟨_, rfl⟩
    | depart => exact ⟨_, rfl⟩
    | flushDone => exact ⟨_, rfl⟩
    | fetchShared m => exact ⟨_, rfl⟩
    | fetchOwned m => exact ⟨_, rfl⟩
    | promote m => exact ⟨_, rfl⟩
    | snapshot m => exact ⟨_, rfl⟩
    | maskedWrite m => exact ⟨_, rfl⟩
    | returnDirty m => exact ⟨_, rfl⟩
    | returnClean m => exact ⟨_, rfl⟩
  · exact ⟨_, rfl⟩
  · exact ⟨_, rfl⟩
  · exact ⟨_, rfl⟩
  · exact ⟨_, rfl⟩
  · exact exec_failingForm hwf

theorem next_unreleased {y : State} (hpin : s.resetPin ≠ .released)
    (h : (.next (if s.resetPin = .released then y else s) : Host.Outcome State Fault Refusal) = .next t) : t = s := by
  rw [if_neg hpin] at h
  cases h
  rfl

/-- A message event under a reset: nothing, but that a hard reset counts what is received (R132, R154). -/
theorem messageEvent_unreleased {received : Bool} {f : State → State} (hpin : s.resetPin ≠ .released)
    (h : messageEvent n received s f = .next t) :
    t = s ∨ s.resetPin = .hard ∧ received = true ∧ t = s.updLink n LinkUnit.discard := by
  cases hp : s.resetPin with
  | released => exact absurd hp hpin
  | powerOn =>
    rw [messageEvent_powerOn n received f hp] at h
    cases h
    exact .inl rfl
  | hard =>
    cases received with
    | true =>
      rw [messageEvent_hard n f hp] at h
      cases h
      exact .inr ⟨rfl, rfl, rfl⟩
    | false =>
      simp only [messageEvent, hp] at h
      cases h
      exact .inl rfl

/-- The commands that act while a reset is applied. -/
def Instr.ActsInReset (c : Instr) (s t : State) : Prop :=
  t = s ∨ c = .powerOnReset ∨ c = .hardReset ∨ (∃ m a, c = .powerOnResetRelease m a) ∨ (∃ m a, c = .hardResetRelease m a)
    ∨ ∃ n, s.resetPin = .hard ∧ Instr.FromLink n c ∧ t = s.updLink n LinkUnit.discard

theorem Instr.ActsInReset.of_message {c : Instr} {received : Bool} {f : State → State} (hpin : s.resetPin ≠ .released)
    (h : messageEvent n received s f = .next t) (hlink : received = true → Instr.FromLink n c) : Instr.ActsInReset c s t := by
  rcases messageEvent_unreleased hpin h with h | ⟨hhard, hreceived, h⟩
  · exact .inl h
  · exact .inr (.inr (.inr (.inr (.inr ⟨n, hhard, hlink hreceived, h⟩))))

/-- A command of the request channel comes from the link exactly where its message arrives. -/
theorem Instr.ActsInReset.of_take {α : Type} {c : Take α → Instr} {g : α → ReqMsg} {src : Take α} {f : State → State}
    (hpin : s.resetPin ≠ .released) (h : messageEvent n src.received s f = .next t) (hc : ∀ m, c (.arriving m) = (g m).command n) :
    Instr.ActsInReset (c src) s t := by
  refine .of_message hpin h fun hreceived => ?_
  cases src with
  | waiting => cases hreceived
  | arriving m => exact .inl ⟨g m, hc m⟩

theorem exec_actsInReset {c : Instr} (hpin : s.resetPin ≠ .released) (h : exec c s = .next t) : Instr.ActsInReset c s t := by
  cases c with
  | hello n src => exact .of_take (g := .hello) hpin h fun _ => rfl
  | depart n src => exact .of_take (g := fun _ => .depart) hpin h fun _ => rfl
  | flushDone n src => exact .of_take (g := fun _ => .flushDone) hpin h fun _ => rfl
  | fetchShared n src => exact .of_take (g := .fetchShared) hpin h fun _ => rfl
  | fetchOwned n src => exact .of_take (g := .fetchOwned) hpin h fun _ => rfl
  | promote n src => exact .of_take (g := .promote) hpin h fun _ => rfl
  | snapshot n src => exact .of_take (g := .snapshot) hpin h fun _ => rfl
  | maskedWrite n src => exact .of_take (g := .maskedWrite) hpin h fun _ => rfl
  | returnDirty n src => exact .of_take (g := .returnDirty) hpin h fun _ => rfl
  | returnClean n src => exact .of_take (g := .returnClean) hpin h fun _ => rfl
  | gone n k l => exact .of_message hpin h fun _ => .inr (.inl ⟨k, l, .inl rfl⟩)
  | clean n k l => exact .of_message hpin h fun _ => .inr (.inl ⟨k, l, .inr rfl⟩)
  | dirty n m => exact .of_message hpin h fun _ => .inr (.inr (.inl ⟨m, rfl⟩))
  | grantAck n k => exact .of_message hpin h fun _ => .inr (.inr (.inr (.inl ⟨k, rfl⟩)))
  | messageFailingFormTest n src =>
    cases src with
    | waiting => exact .of_message hpin h (by simp)
    | arriving x =>
      by_cases hform : failsForm x = true
      · obtain ⟨f, hf⟩ := exec_failingForm (n := n) (s := s) hform
        exact .of_message hpin (hf ▸ h) fun _ => .inr (.inr (.inr (.inr ⟨x, rfl⟩)))
      · rw [show exec (.messageFailingFormTest n (.arriving x)) s = .refused .illFormed from if_neg hform] at h
        cases h
  | powerOnReset => exact .inr (.inl rfl)
  | hardReset => exact .inr (.inr (.inl rfl))
  | powerOnResetRelease m a => exact .inr (.inr (.inr (.inl ⟨m, a, rfl⟩)))
  | hardResetRelease m a => exact .inr (.inr (.inr (.inr (.inl ⟨m, a, rfl⟩))))
  | undefinedCommandCode code arg =>
    simp only [exec, execUndefinedCommandCode] at h
    split at h
    · cases h
    · exact .inl (next_unreleased hpin h)
  | configurationWrite off v =>
    simp only [exec, execConfigurationWrite] at h
    split at h
    · exact .inl (next_unreleased hpin h)
    · split at h
      · exact .inl (next_unreleased hpin h)
      · cases h
  | shortWrite off data =>
    simp only [exec, execShortWrite] at h
    split at h
    · exact .inl (next_unreleased hpin h)
    · cases h
  | registerWriteNoEffect off v =>
    simp only [exec, execRegisterWriteNoEffect] at h
    split at h
    · exact .inl (next_unreleased hpin h)
    · cases h
  | _ => exact .inl (next_unreleased hpin h)

theorem State.finishShortClear_of_not
    (h : s.mem.dram.clearRunning = false ∨ s.mem.dram.clearPosition < s.poolLines) : s.finishShortClear = s := by
  refine if_neg fun hc => ?_
  obtain ⟨hrunning, hle⟩ := Bool.and_eq_true_iff.mp hc
  rcases h with h | h
  · rw [h] at hrunning
    cases hrunning
  · exact absurd (of_decide_eq_true hle) (Nat.not_le.mpr h)

theorem State.finishShortClear_of (hrunning : s.mem.dram.clearRunning = true) (hle : s.poolLines ≤ s.mem.dram.clearPosition) :
    s.finishShortClear = s.completeClear := if_pos (Bool.and_eq_true_iff.mpr ⟨hrunning, decide_eq_true hle⟩)

end

/-- Settles O54: what the blocks take at each reset, the releases, and that a reset lets only messages of the link be counted. -/
theorem resetsAndReleases : Obligations.ResetsAndReleases := by
  unfold Obligations.ResetsAndReleases
  intro link slice mgmt fromLink counted
  refine ⟨rfl, ?_, ?_, ?_, ?_⟩
  · intro s
    exact ⟨⟨s.mem.dram.powerOn, rfl, rfl, rfl⟩, fun hpin => congrArg Host.Outcome.next (if_neg hpin),
      fun hpin => congrArg Host.Outcome.next (if_pos hpin)⟩
  · intro msize addr s released
    refine ⟨fun hpin => ?_, fun hpin hclear => ?_, fun hpin hrunning hle => ?_⟩
    · exact congrArg Host.Outcome.next (if_pos hpin)
    · exact congrArg Host.Outcome.next ((if_pos hpin).trans (State.finishShortClear_of_not (s := released) hclear))
    · exact congrArg Host.Outcome.next ((if_pos hpin).trans (State.finishShortClear_of (s := released) hrunning hle))
  · intro n c s hpin hc hwf
    obtain ⟨f, hf⟩ := Instr.FromLink.exec_eq (s := s) hc hwf
    exact hf.trans (messageEvent_hard n f hpin)
  · exact fun c s t hpin h => exec_actsInReset hpin h

end Sys2Proof.Machine

/-!
The events at a slice: what a message path, a notice path and the command path hand to a slice, which then goes on within the event; with it the
submission arbiter (R173, R174) and the notices of a link unit (R34, R118, R119, R159, R160).
-/

namespace Sys2Proof.Machine

/-! ## The first in order that passes -/

theorem find?_of_first {k : Nat} {p : Fin k → Bool} {i : Fin k} (hi : p i = true) (hlt : ∀ j, j < i → p j = false) :
    (List.finRange k).find? p = some i := by
  rw [← List.findSome?_guard]
  exact findSome?_of_first (i := i) (by simp [Option.guard, hi]) fun j hj => by simp [Option.guard, hlt j hj]

/-! ## Events at a slice (log 17) -/

section
variable {sid : SliceId} {n : Agent} {s : State}

/-- A message of the path from LUn is taken, and the slice goes on. -/
theorem whileReleased_takeFromLink {m : SliceMsg} {ms : List SliceMsg} {f : SliceMsg → Option (Env → Slice → Slice)} {g : Env → Slice → Slice}
    (hpin : s.resetPin = .released) (hpath : s.links[n].toSlice[sid] = m :: ms) (hf : f m = some g) :
    whileReleased s (State.takeFromLink sid n f) =
      .next ((s.afterSliceMsg sid n ms).updSlice sid fun x => (g (s.env sid) x).goOn (s.env sid) false) := by
  rw [whileReleased_of_released _ _ hpin, State.takeFromLink, hpath]
  simp only [hf]
  rfl

/-- A message that its kind's event does not take stays in its path (R131, R173). -/
theorem whileReleased_takeFromLink_none {m : SliceMsg} {ms : List SliceMsg} {f : SliceMsg → Option (Env → Slice → Slice)}
    (hpin : s.resetPin = .released) (hpath : s.links[n].toSlice[sid] = m :: ms) (hf : f m = none) :
    whileReleased s (State.takeFromLink sid n f) = .next s := by
  rw [whileReleased_of_released _ _ hpin, State.takeFromLink, hpath]
  simp only [hf]

theorem whileReleased_takeNotice {x : Notice} {xs : List Notice} {wake : Bool} {f : Env → Slice → Slice}
    (hpin : s.resetPin = .released) (hpath : s.links[n].notices[sid] = x :: xs) :
    whileReleased s (State.takeNotice sid n x wake f) =
      .next ((s.afterNotice sid n xs).updSlice sid fun y => (f (s.env sid) y).goOn (s.env sid) wake) := by
  rw [whileReleased_of_released _ _ hpin, State.takeNotice, hpath]
  exact congrArg _ (if_pos rfl)

theorem whileReleased_takeCommand {m : CommandMsg} {ms : List CommandMsg} {f : CommandMsg → Option (Env → Slice → Slice)}
    {g : Env → Slice → Slice} (hpin : s.resetPin = .released) (hpath : s.mgmt.cmdPath[sid] = m :: ms) (hf : f m = some g) :
    whileReleased s (State.takeCommand sid f) =
      .next ((s.afterCommand sid ms).updSlice sid fun x => (g (s.env sid) x).goOn (s.env sid) false) := by
  rw [whileReleased_of_released _ _ hpin, State.takeCommand, hpath]
  simp only [hf]
  rfl

/-- What an event makes of its slice is all that matters of how it is written. -/
theorem next_updSlice_congr {f g : Slice → Slice} (h : f s.slices[sid] = g s.slices[sid]) :
    (.next (s.updSlice sid f) : Host.Outcome State Fault Refusal) = .next (s.updSlice sid g) := congrArg _ (State.updSlice_congr h)

/-- An event that leaves its slice as it was. -/
theorem next_updSlice_same {f : Slice → Slice} (h : f s.slices[sid] = s.slices[sid]) :
    (.next (s.updSlice sid f) : Host.Outcome State Fault Refusal) = .next s :=
  congrArg _ ((State.updSlice_congr (g := fun x => x) h).trans (State.updSlice_id s sid))

end

/-! ## The submission arbiter (R173, R174) -/

section
variable {sid : SliceId} {s : State}

/-- The turn after the last slice served. -/
theorem State.nextToSubmit_of_first {k : Fin 4} (hsid : sid = s.mem.lastServed + 1 + k)
    (hlt : ∀ j : Fin 4, j < k → s.slices[s.mem.lastServed + 1 + j].submission = []) (hne : s.slices[sid].submission ≠ []) :
    s.nextToSubmit = some sid := by
  have hturn (z : SliceId) : [z + 1, z + 2, z + 3, z] = (List.finRange 4).map fun j => z + 1 + j := by
    revert z
    decide
  have hfirst : (List.finRange 4).find? (fun j => !(s.slices[s.mem.lastServed + 1 + j].submission.isEmpty)) = some k :=
    find?_of_first (by simp only [← hsid]; simpa using hne) fun j hj => by simp only [hlt j hj, List.isEmpty_nil, Bool.not_true]
  rw [State.nextToSubmit, hturn, List.find?_map]
  simp only [Function.comp_def, hfirst, Option.map_some, hsid]

theorem State.submit_of_cons {o : Ordered} {os : List Ordered} (h : s.slices[sid].submission = o :: os) : s.submit sid =
    (s.updMem fun m => { m with queue := m.queue ++ [⟨o.op, sid⟩], lastServed := sid }).updSlice sid fun x =>
      Slice.goOn (s.env sid) false { x with submission := os } := by
  rw [State.submit, h]
  exact State.updSlice_updSlice (s.updMem fun m => { m with queue := m.queue ++ [⟨o.op, sid⟩], lastServed := sid }) sid
    (fun x => { x with submission := os }) (Slice.goOn (s.env sid) false)

end

/-- Settles O43: the first slice in turn with an operation waiting is served, where the queue has a place. -/
theorem theQueueServesSlicesInTurn : Obligations.TheQueueServesSlicesInTurn := by
  unfold Obligations.TheQueueServesSlicesInTurn
  intro sid k o os s hpin hsid hlt hsub
  have hnext : s.nextToSubmit = some sid := State.nextToSubmit_of_first hsid hlt (by rw [hsub]; simp)
  have hexec : exec .operationSubmitted s = .next (if s.mem.queue.length < 64 then s.submit sid else s) := by
    rw [show exec .operationSubmitted s = execOperationSubmitted s from rfl, execOperationSubmitted, whileReleased_of_released _ _ hpin]
    simp only [hnext]
    rfl
  refine ⟨fun hlen => ?_, fun hlen => ?_⟩
  · rw [hexec, if_pos hlen, State.submit_of_cons hsub]
  · rw [hexec, if_neg (Nat.not_lt.mpr hlen)]

/-! ## The notices of a link unit -/

/-- The answer to a waiter that a drain notice removes (R34). -/
def Waiter.refusal (w : Waiter) : Option LinkMsg :=
  match w.originator with
  | .agent _ t => some (.response (.refused t .departing))
  | .sweep => none
  | .management => none

theorem Slice.refuseWaiter_eq (n : Agent) (x : Slice) (w : Waiter) :
    Slice.refuseWaiter n x w = { x with toLink := x.toLink.set n (x.toLink[n] ++ w.refusal.toList) } := by
  obtain ⟨o, k, l, d⟩ := w
  cases o with
  | agent a t => rfl
  | sweep => simp [Slice.refuseWaiter, Waiter.refusal]
  | management => simp [Slice.refuseWaiter, Waiter.refusal]

/-- The answers of a drain notice go out in the order of the waiters. -/
theorem Slice.foldl_refuseWaiter (n : Agent) (ws : List Waiter) (x : Slice) :
    ws.foldl (Slice.refuseWaiter n) x = { x with toLink := x.toLink.set n (x.toLink[n] ++ ws.filterMap Waiter.refusal) } := by
  induction ws generalizing x with
  | nil => simp
  | cons w ws ih =>
    rw [List.foldl_cons, ih, Slice.refuseWaiter_eq]
    cases h : w.refusal <;> simp [h]

/-- Settles O39: the removed waiters' answers, the joining DRAIN job, and the release at a still slice. -/
theorem drainAndReleaseNoticesAreTaken : Obligations.DrainAndReleaseNoticesAreTaken := by
  unfold Obligations.DrainAndReleaseNoticesAreTaken
  intro sid n s hpin env
  refine ⟨?_, ?_, ?_⟩
  · intro xs hpath refusals
    refine (whileReleased_takeNotice hpin hpath).trans (next_updSlice_congr (congrArg (Slice.goOn env true) ?_))
    have hrefusals (x : Slice) : refusals x = (x.waitQueue.filter (Waiter.isFrom n)).filterMap Waiter.refusal := by
      refine List.filterMap_congr fun w _ => ?_
      rw [Waiter.refusal]
      cases w.originator <;> rfl
    rw [Slice.drainNotice, Slice.foldl_refuseWaiter, hrefusals]
    rfl
  · exact fun xs hpath => whileReleased_takeNotice hpin hpath
  · intro ms hpath hstill
    refine (whileReleased_takeFromLink hpin hpath rfl).trans (next_updSlice_congr ?_)
    exact Slice.goOn_of_still _ _ _ (Slice.still_of_same env _ _ hstill rfl rfl rfl rfl rfl rfl)

section
variable {env : Env} {n : Agent} {i : RecIdx} {x : Slice}

theorem Slice.fenceRecord_of_free (h : x.records[i].phase = .free) : x.fenceRecord env n i = x := if_pos h

theorem Slice.fenceRecord_of_other (hphase : x.records[i].phase ≠ .free) (hfrom : x.records[i].isFrom n = false) :
    x.fenceRecord env n i = (x.settleFenced env i false n).settleFenced env i true n := by
  simp only [Slice.fenceRecord]
  rw [if_neg hphase, hfrom]
  rfl

/-- The record with another deadline. -/
def Record.withDeadline (d : Deadline) (r : Record) : Record := { r with deadline := d }

/-- The deadline that R40 gives a record which awaits agents, or does not. -/
def Env.deadlineAfter (env : Env) (awaits : Bool) (d : Deadline) : Deadline :=
  if awaits then (match d with | .stopped => .running (env.now + env.timeout) | d => d) else .stopped

theorem Record.fixDeadline_eq (r : Record) : r.fixDeadline env = r.withDeadline (env.deadlineAfter r.awaits r.deadline) := rfl

/-- A deadline that has followed one change of a record follows the next as from the record before it, where that change begins no waiting. -/
theorem Record.fixDeadline_after {g : Record → Record} {r : Record} (hg : ∀ d, g (r.withDeadline d) = (g r).withDeadline d)
    (hawaits : (g r).awaits = true → r.awaits = true) : (g (r.fixDeadline env)).fixDeadline env = (g r).fixDeadline env := by
  have hsame : g r = (g r).withDeadline r.deadline := hg r.deadline
  have hdeadline : (g r).deadline = r.deadline := (congrArg Record.deadline hsame).trans rfl
  have hfix (d : Deadline) : ((g r).withDeadline d).fixDeadline env = (g r).withDeadline (env.deadlineAfter (g r).awaits d) := rfl
  rw [Record.fixDeadline_eq r, hg, hfix, Record.fixDeadline_eq (g r), hdeadline]
  refine congrArg (Record.withDeadline · (g r)) ?_
  cases ha : (g r).awaits with
  | false => rfl
  | true =>
    rw [hawaits ha]
    cases r.deadline <;> rfl

/-- Two changes of a record are one, where the second begins no waiting (R40). -/
theorem Slice.updRec_updRec {f g : Record → Record}
    (hg : ∀ d, g ((f x.records[i]).withDeadline d) = (g (f x.records[i])).withDeadline d)
    (hawaits : (g (f x.records[i])).awaits = true → (f x.records[i]).awaits = true) :
    (x.updRec env i f).updRec env i g = x.updRec env i fun r => g (f r) := by
  simp only [Slice.updRec, Fin.getElem_fin, Vector.getElem_set_self, Vector.set_set]
  exact congrArg (fun r => { x with records := x.records.set i r }) (Record.fixDeadline_after hg hawaits)

theorem Slice.fenceRecord_of_gather (hphase : x.records[i].phase = .gather) (hfrom : x.records[i].isFrom n = true) :
    x.fenceRecord env n i =
      ((x.updRec env i fun r => { r with originFenced := true }).settleFenced env i false n).settleFenced env i true n := by
  simp only [Slice.fenceRecord]
  rw [if_neg (by rw [hphase]; decide), hphase, hfrom]
  rfl

/-- A record of a fenced agent in CONFIRM ends as if its GrantAck had come (R67). -/
theorem Slice.fenceRecord_of_confirm (hphase : x.records[i].phase = .confirm) (hfrom : x.records[i].isFrom n = true) :
    x.fenceRecord env n i = ((x.updRec env i fun r => { r with originFenced := true, finished := true }).settleFenced env i false n).settleFenced
      env i true n := by
  have hmark : (x.updRec env i fun r => { r with originFenced := true }).finish env i =
      x.updRec env i fun r => { r with originFenced := true, finished := true } := by
    refine Slice.updRec_updRec (g := fun r => { r with finished := true }) (fun _ => rfl) fun h => ?_
    simp only [Record.awaits, Bool.not_true, Bool.and_false, Bool.or_false] at h ⊢
    rw [h, Bool.true_or]
  simp only [Slice.fenceRecord]
  rw [if_neg (by rw [hphase]; decide), hphase, hfrom, ← hmark]
  rfl

end

/-- Settles O38: the six steps of the notice in their order, and its third step at one record. -/
theorem aFenceNoticeIsTaken : Obligations.AFenceNoticeIsTaken := by
  unfold Obligations.AFenceNoticeIsTaken
  refine ⟨?_, ?_⟩
  · intro sid n xs s hpin hpath env cut settled wentOn replaced
    have hreplaced (x : Slice) : (x.dropDrainJob n).joinJob (.fence n) = replaced x := rfl
    have hnotice (x : Slice) : Slice.fenceNotice env n x = replaced (wentOn x) := hreplaced (wentOn x)
    refine (whileReleased_takeNotice hpin hpath).trans (next_updSlice_congr (congrArg (Slice.goOn env true) ?_))
    exact hnotice _
  · intro env n i x r settle
    exact ⟨Slice.fenceRecord_of_free, Slice.fenceRecord_of_other, Slice.fenceRecord_of_gather, Slice.fenceRecord_of_confirm⟩

end Sys2Proof.Machine

/-!
The directory of a slice as its operations leave it (R9, R10, R14 to R19), the removal of agents from entries (R18, R19, R165), the Inspect lookup
(R204), the absorbed returns (R82) and the matched replies (R74 to R77).
-/

namespace Sys2Proof.Machine

/-! ## Sets of agents (R18) -/

theorem AgentSet.getLsbD_erase (a : AgentSet) (n m : Agent) :
    (AgentSet.erase a n).getLsbD m.val = (a.getLsbD m.val && !decide (m = n)) := by
  rw [AgentSet.erase, BitVec.getLsbD_and, BitVec.getLsbD_not, AgentSet.getLsbD_single, decide_eq_true m.isLt, Bool.true_and]

theorem AgentSet.erase_single (n : Agent) : AgentSet.erase (AgentSet.single n) n = 0#8 := by
  revert n
  decide

/-- A member without whom the set is empty is its only member. -/
theorem AgentSet.eq_single_of_erase {a : AgentSet} {n : Agent} (hmem : a.getLsbD n = true) (h : AgentSet.erase a n = 0#8) : a = AgentSet.single n := by
  refine AgentSet.ext fun m => ?_
  have hm := AgentSet.getLsbD_erase a n m
  rw [h, BitVec.getLsbD_zero] at hm
  rw [AgentSet.getLsbD_single]
  by_cases hmn : m = n
  · subst hmn
    rw [hmem, decide_eq_true rfl]
  · rw [decide_eq_false hmn, Bool.not_false, Bool.and_true] at hm
    rw [← hm, decide_eq_false hmn]

theorem AgentSet.getLsbD_single_self (n : Agent) : (AgentSet.single n).getLsbD n = true := by
  rw [AgentSet.getLsbD_single, decide_eq_true rfl]

/-! ## One set of the directory changed -/

section
variable {x : Slice} {sid : SliceId} {l : LineAddr} {w : WayIdx} {e : Entry} {n : Agent} {i : RecIdx}

theorem Slice.freeEntry_of_entry (h : x.entryOf l = some (w, e)) : x.freeEntry sid l = x.withWayOut (setOf l) w (x.freedWay sid l) := by
  rw [Slice.freeEntry, h]
  rfl

theorem Slice.freeEntry_of_none (h : x.entryOf l = none) : x.freeEntry sid l = x := by
  rw [Slice.freeEntry, h]

theorem Slice.rewriteEntry_of_entry (h : x.entryOf l = some (w, e)) (e' : Entry) :
    x.rewriteEntry l e' = x.withWay (setOf l) w (.occupied (tagOf l) e') := by
  rw [Slice.rewriteEntry, h]
  rfl

theorem Slice.grantEntry_of_entry (h : x.entryOf l = some (w, e)) (e' : Entry) :
    x.grantEntry l e' = x.withWayFront (setOf l) w (.occupied (tagOf l) e') := by
  rw [Slice.grantEntry, h]
  rfl

theorem Slice.grantEntry_of_reservation {h : Handle} (hentry : x.entryOf l = none) (hres : x.reservationOf l = some (w, h)) (e' : Entry) :
    x.grantEntry l e' = x.withWayFront (setOf l) w (.occupied (tagOf l) e') := by
  rw [Slice.grantEntry, hentry, hres]
  rfl

/-! ## What the way of a freed line becomes (R19) -/

theorem Slice.freedWay_of_unheld (h : x.holder l = none) : x.freedWay sid l = .empty := by
  rw [Slice.freedWay, h]

theorem Slice.freedWay_of_victim (h : x.holder l = some i) (hv : x.records[i].victim = some l) :
    x.freedWay sid l = .reserved (tagOf x.records[i].line) (handleOf sid i) := by
  rw [Slice.freedWay, h]
  exact if_pos hv

theorem Slice.freedWay_of_request (h : x.holder l = some i) (hv : x.records[i].victim ≠ some l) : x.freedWay sid l =
    if x.records[i].kind.caching && x.records[i].phase = .gather && !x.records[i].originFenced then .reserved (tagOf l) (handleOf sid i) else .empty := by
  rw [Slice.freedWay, h]
  exact if_neg hv

theorem Slice.holder_eq_none (h : ∀ i : RecIdx, ¬x.records[i].holds l) : x.holder l = none :=
  Option.isNone_iff_eq_none.mp (by
    have hheld := (Slice.held_eq_false x l).mpr h
    rwa [Slice.held, Option.isSome_eq_false_iff] at hheld)

theorem Kind.caching_iff (k : Kind) : k.caching = true ↔ k ∈ [Kind.fetchShared, .fetchOwned, .promote] := by cases k <;> decide

/-! ## An agent removed from an entry (R18, R19, R165) -/

theorem Slice.removeAgent_of_none (h : x.entryOf l = none) : x.removeAgent sid l n = x := by
  rw [Slice.removeAgent, h]

theorem Slice.removeAgent_of_owned {b : Agent} (h : x.entryOf l = some (w, .owned b)) :
    x.removeAgent sid l n = if b = n then x.freeEntry sid l else x := by
  rw [Slice.removeAgent, h]

theorem Slice.removeAgent_of_shared {a : AgentSet} (h : x.entryOf l = some (w, .shared a)) : x.removeAgent sid l n =
    if a.getLsbD n then
      (if AgentSet.erase a n = 0#8 then x.freeEntry sid l else x.withWay (setOf l) w (.occupied (tagOf l) (.shared (AgentSet.erase a n))))
    else x := by
  rw [← Slice.rewriteEntry_of_entry h, Slice.removeAgent, h]
  rfl

theorem Slice.removeAgent_of_sharers {a : AgentSet} (h : x.entryOf l = some (w, .shared a)) (hmem : a.getLsbD n = true)
    (hne : a ≠ AgentSet.single n) :
    x.removeAgent sid l n = x.withWay (setOf l) w (.occupied (tagOf l) (.shared (AgentSet.erase a n))) := by
  rw [Slice.removeAgent_of_shared h, if_pos hmem, if_neg fun hz => hne (AgentSet.eq_single_of_erase hmem hz)]

theorem Slice.removeAgent_of_last {a : AgentSet} (h : x.entryOf l = some (w, .shared a)) (ha : a = AgentSet.single n) :
    x.removeAgent sid l n = x.freeEntry sid l := by
  subst ha
  rw [Slice.removeAgent_of_shared h, if_pos (AgentSet.getLsbD_single_self n), if_pos (AgentSet.erase_single n)]

theorem Slice.removeAgent_of_not_mem {a : AgentSet} (h : x.entryOf l = some (w, .shared a)) (hmem : a.getLsbD n = false) :
    x.removeAgent sid l n = x := by
  rw [Slice.removeAgent_of_shared h, hmem]
  rfl

theorem Slice.fenceAction_of_shared {a : AgentSet} (h : x.entryOf l = some (w, .shared a)) : x.fenceAction sid l n = x.removeAgent sid l n := by
  rw [Slice.fenceAction, h]

theorem Slice.fenceAction_of_owned {b : Agent} (h : x.entryOf l = some (w, .owned b)) :
    x.fenceAction sid l n = if b = n then (x.orders (.poisonWrite l) .engine).freeEntry sid l else x := by
  rw [Slice.fenceAction, h]
  rfl

theorem Slice.fenceAction_of_none (h : x.entryOf l = none) : x.fenceAction sid l n = x := by
  rw [Slice.fenceAction, h]

end

/-- Settles O21: the entry by its agents, and the way of a freed line by the record that holds it. -/
theorem entriesLoseTheirAgents : Obligations.EntriesLoseTheirAgents := by
  unfold Obligations.EntriesLoseTheirAgents
  refine ⟨?_, ?_⟩
  · intro sid l n w x freed
    have hfreed {e : Entry} (h : x.entryOf l = some (w, e)) {y : Way} (hy : x.freedWay sid l = y) : freed y :=
      (Slice.freeEntry_of_entry h).trans (hy ▸ rfl)
    refine ⟨fun a h => ⟨Slice.removeAgent_of_sharers h, Slice.removeAgent_of_last h, Slice.removeAgent_of_not_mem h⟩,
      fun b h => ⟨fun hb => ?_, fun hb => ?_⟩, fun h => ⟨Slice.removeAgent_of_none h, Slice.freeEntry_of_none h⟩,
      fun e h => ⟨fun hunheld => hfreed h (Slice.freedWay_of_unheld hunheld), fun i hi => ⟨fun hv => ?_, fun hv hk hp hf => ?_, fun hv hnot => ?_⟩⟩⟩
    · rw [Slice.removeAgent_of_owned h, if_pos hb]
    · rw [Slice.removeAgent_of_owned h, if_neg hb]
    · exact hfreed h (Slice.freedWay_of_victim hi hv)
    · refine hfreed h ((Slice.freedWay_of_request hi hv).trans (if_pos ?_))
      rw [(Kind.caching_iff _).mpr hk, decide_eq_true hp, hf]
      rfl
    · refine hfreed h ((Slice.freedWay_of_request hi hv).trans (if_neg ?_))
      rw [Bool.and_eq_true, Bool.and_eq_true, Kind.caching_iff, decide_eq_true_iff, Bool.not_eq_true']
      rintro ⟨⟨hk, hp⟩, hf⟩
      rcases hnot with hnot | hnot | hnot
      · exact hnot hk
      · exact hnot hp
      · rw [hf] at hnot
        cases hnot
  · intro sid l n w x hunheld
    have hempty : x.freedWay sid l = .empty := Slice.freedWay_of_unheld (Slice.holder_eq_none hunheld)
    refine ⟨fun a h => ?_, fun b h => ⟨fun hb => ?_, fun hb => ?_⟩, Slice.fenceAction_of_none⟩
    · rw [Slice.fenceAction_of_shared h]
      refine ⟨Slice.removeAgent_of_sharers h, fun ha => ?_, Slice.removeAgent_of_not_mem h⟩
      rw [Slice.removeAgent_of_last h ha, Slice.freeEntry_of_entry h, hempty]
    · have hentry : (x.orders (.poisonWrite l) .engine).entryOf l = some (w, .owned b) := h
      have hempty' : (x.orders (.poisonWrite l) .engine).freedWay sid l = .empty := hempty
      rw [Slice.fenceAction_of_owned h, if_pos hb, Slice.freeEntry_of_entry hentry, hempty']
    · rw [Slice.fenceAction_of_owned h, if_neg hb]

/-- Settles O22: the lookup by what the set holds for the line. -/
theorem anInspectReadsTheDirectory : Obligations.AnInspectReadsTheDirectory := by
  unfold Obligations.AnInspectReadsTheDirectory
  intro sid l ms s hpin hpath hstill x place answers
  have hanswers (r : InspectResult) (hr : x.inspect l = r) : answers r := by
    refine (whileReleased_takeCommand hpin hpath rfl).trans (next_updSlice_congr ?_)
    rw [show (s.afterCommand sid ms).slices[sid] = x from rfl, hr]
    exact Slice.goOn_of_still _ _ _ (Slice.still_of_same _ _ _ hstill rfl rfl rfl rfl rfl rfl)
  refine ⟨fun w a h => hanswers _ ?_, fun w b h => hanswers _ ?_, fun w k h hres => hanswers _ ?_, fun h hres => hanswers _ ?_⟩
  · simp only [Slice.inspect, h]
    rfl
  · simp only [Slice.inspect, h]
    rfl
  · simp only [Slice.inspect, h, hres]
  · simp only [Slice.inspect, h, hres]

/-! ## An accepted return absorbed (R82) -/

/-- What an absorbed return makes of the owner's wait. -/
def Wait.afterReturn (q : Wait) : Option WaitState :=
  match q.role, q.state with
  | .owner, .awaitingReply => some .replyAfterReturn
  | .owner, .awaitingReturn => some (.settled .returned)
  | _, _ => none

section
variable {env : Env} {n : Agent} {l : LineAddr} {d : Option Poisoned} {i : RecIdx} {v : Bool} {q : Wait} {x : Slice}

theorem Slice.absorb_eq (hholder : x.holderOf l = some (i, v)) (hwait : (x.records[i].waitsOn v).find? (fun w => w.agent = n) = some q) :
    x.absorb env n l d = match q.afterReturn with
      | none => x
      | some st => if v then x.moveWaitOf env i v n st else (x.moveWaitOf env i v n st).returnSource env i d := by
  have hwait' : x.records[i].waitOf v n = some q := hwait
  obtain ⟨a, role, probe, state⟩ := q
  simp only [Slice.absorb, hholder, hwait', Wait.afterReturn]
  cases role <;> cases state <;> rfl

theorem Kind.usesData_iff (k : Kind) : k.usesData = true ↔ k ∉ [Kind.recall, Kind.scrub] := by cases k <;> decide

theorem Kind.readsMemory_iff (k : Kind) : k.readsMemory = true ↔ k ∈ [Kind.fetchShared, Kind.fetchOwned, Kind.promote, Kind.snapshot] := by
  cases k <;> decide

theorem Slice.fillBuffer_eq (b : Buffer) : x.fillBuffer env i b =
    if x.records[i].kind ∈ [Kind.recall, Kind.scrub] then x else x.updRec env i fun r => { r with buffer := some b } := by
  rw [Slice.fillBuffer]
  by_cases h : x.records[i].kind ∈ [Kind.recall, Kind.scrub]
  · rw [if_pos h, if_neg fun hc => (Kind.usesData_iff _).mp hc h]
  · rw [if_neg h, if_pos ((Kind.usesData_iff _).mpr h)]

theorem Slice.cleanSource_eq : x.cleanSource env i =
    if x.records[i].kind ∈ [Kind.fetchShared, Kind.fetchOwned, Kind.promote, Kind.snapshot] ∧ x.records[i].originFenced = false then
      x.orderRead env i else x := by
  have hiff : (x.records[i].kind.readsMemory && !x.records[i].originFenced) = true
      ↔ x.records[i].kind ∈ [Kind.fetchShared, Kind.fetchOwned, Kind.promote, Kind.snapshot] ∧ x.records[i].originFenced = false := by
    rw [Bool.and_eq_true, Kind.readsMemory_iff, Bool.not_eq_true']
  rw [Slice.cleanSource]
  simp only [hiff]

theorem Slice.moveWaitOf_kind (v : Bool) (n : Agent) (st : WaitState) :
    (x.moveWaitOf env i v n st).records[i].kind = x.records[i].kind
      ∧ (x.moveWaitOf env i v n st).records[i].originFenced = x.records[i].originFenced := by
  rw [Slice.moveWaitOf, Slice.updRec_self]
  cases v <;> exact ⟨rfl, rfl⟩

end

/-- Settles O29: the wait that takes the return, and the data source that follows. -/
theorem anAcceptedReturnIsAbsorbed : Obligations.AnAcceptedReturnIsAbsorbed := by
  unfold Obligations.AnAcceptedReturnIsAbsorbed
  intro env n l d i v q x hholder hwait after
  have hnext (st : WaitState) (h : q.afterReturn = some st) : x.absorb env n l d = after st := by
    obtain ⟨hkind, hfenced⟩ := Slice.moveWaitOf_kind (env := env) (i := i) (x := x) v n st
    rw [Slice.absorb_eq hholder hwait, h]
    cases v with
    | true => rfl
    | false =>
      cases d with
      | some d =>
        refine congrArg (Slice.updRec env i Record.replan) ((Slice.fillBuffer_eq _).trans ?_)
        rw [hkind]
      | none =>
        refine congrArg (Slice.updRec env i Record.replan) (Slice.cleanSource_eq.trans ?_)
        rw [hkind, hfenced]
  refine ⟨fun hrole hstate => hnext _ ?_, fun hrole hstate => hnext _ ?_, fun hnot => ?_⟩
  · rw [Wait.afterReturn, hrole, hstate]
  · rw [Wait.afterReturn, hrole, hstate]
  · have hnone : q.afterReturn = none := by
      obtain ⟨a, role, probe, state⟩ := q
      cases role with
      | sharer => rfl
      | owner =>
        obtain h | ⟨hreply, hreturn⟩ := hnot
        · cases h
        · cases state with
          | awaitingReply => exact absurd rfl hreply
          | awaitingReturn => exact absurd rfl hreturn
          | replyAfterReturn => rfl
          | settled how => rfl
    rw [Slice.absorb_eq hholder hwait, hnone]

/-! ## Replies (R71 to R77) -/

section
variable {env : Env} {sid : SliceId} {n : Agent} {line : LineAddr} {i : RecIdx} {v : Bool} {q : Wait} {rep : Reply} {x : Slice}

/-- The wait that a reply names. -/
theorem Slice.replyWait_of (hphase : x.records[i].phase = .gather)
    (hline : if v then x.records[i].line ≠ line ∧ x.records[i].victim = some line else x.records[i].line = line)
    (hwait : (x.records[i].waitsOn v).find? (fun w => w.agent = n) = some q) : x.replyWait n (handleOf sid i) line = some (i, v, q) := by
  have hwait' : x.records[i].waitOf v n = some q := hwait
  simp only [Slice.replyWait, handleIdx_handleOf]
  rw [if_pos hphase]
  cases v with
  | false =>
    rw [if_pos (show x.records[i].line = line from hline), hwait']
    rfl
  | true =>
    obtain ⟨hne, hvictim⟩ := hline
    rw [if_neg hne, if_pos hvictim, hwait']
    rfl

theorem Slice.replyArrives_of {z : Slice} (hfenced : x.fenced.getLsbD n = false) (hwait : x.replyWait n (handleOf sid i) line = some (i, v, q))
    (htake : x.takeReply env n line rep i v q = some z) : x.replyArrives env n (handleOf sid i) line rep = z := by
  have hmem : AgentSet.mem x.fenced n = false := hfenced
  rw [Slice.replyArrives, hmem, hwait, if_neg (by decide), Option.bind_some]
  dsimp only
  rw [htake]
  rfl

end

/-- Settles O30: the reply's wait is taken by the reply's kind, and the event goes on. -/
theorem aMatchedReplyMovesItsWait : Obligations.AMatchedReplyMovesItsWait := by
  unfold Obligations.AMatchedReplyMovesItsWait
  intro sid n i line v q rep ms s hpin hpath x hfenced hphase hline hwait env kind becomes
  have hfind : x.replyWait n (handleOf sid i) line = some (i, v, q) := Slice.replyWait_of hphase hline hwait
  have htaken {f : Slice → Slice} (htake : x.takeReply env n line rep i v q = some (f x)) :
      Slice.goOn env false (x.replyArrives env n (handleOf sid i) line rep) = (f x).goOn env false :=
    congrArg (Slice.goOn env false) (Slice.replyArrives_of hfenced hfind htake)
  have hkind (st : WaitState) : (x.moveWaitOf env i v n st).records[i].kind = kind ∧ _ := Slice.moveWaitOf_kind v n st
  obtain ⟨a, role, probe, state⟩ := q
  refine ⟨?_, ?_, ?_⟩
  · rintro rfl
    have hgone {f : Slice → Slice} (htake : x.takeGone env n line i v ⟨a, role, probe, state⟩ = some (f x)) : becomes (.replyGone sid n) f :=
      (whileReleased_takeFromLink hpin hpath rfl).trans (next_updSlice_congr (htaken htake))
    refine ⟨?_, ?_, ?_⟩
    · rintro rfl rfl
      exact hgone rfl
    · rintro rfl rfl
      exact hgone rfl
    · rintro rfl rfl
      exact hgone rfl
  · rintro rfl rfl
    have hclean {f : Slice → Slice} (htake : x.takeClean env n i v ⟨a, role, probe, .awaitingReply⟩ = some (f x)) : becomes (.replyClean sid n) f :=
      (whileReleased_takeFromLink hpin hpath rfl).trans (next_updSlice_congr (htaken htake))
    obtain ⟨hkind', hfenced'⟩ := hkind (.settled .clean)
    refine ⟨fun hnot => hclean ?_, fun hrole hv hk hf => hclean ?_⟩
    · cases role with
      | sharer => rfl
      | owner =>
        cases v with
        | true => rfl
        | false =>
          refine congrArg some (Slice.cleanSource_eq.trans (if_neg ?_))
          rw [hkind', hfenced']
          rintro ⟨hmem, hnf⟩
          rcases hnot with h | h | h | h
          · cases h
          · cases h
          · exact h hmem
          · rw [hnf] at h
            cases h
    · obtain rfl : role = .owner := hrole
      subst hv
      refine congrArg some (Slice.cleanSource_eq.trans (if_pos ?_))
      rw [hkind', hfenced']
      exact ⟨hk, hf⟩
  · rintro d rfl hrole hstate keeps writes
    obtain rfl : role = .owner := hrole
    obtain rfl : state = .awaitingReply := hstate
    have hdirty {f : Slice → Slice} (htake : (x.moveWaitOf env i v n (.settled .dirty)).dirtySource env line d i v = f x) :
        becomes (.replyDirty sid n) f :=
      (whileReleased_takeFromLink hpin hpath rfl).trans (next_updSlice_congr (htaken (congrArg some htake)))
    obtain ⟨hkind', -⟩ := hkind (.settled .dirty)
    refine ⟨fun h => hdirty ?_, fun hv hk => hdirty ?_, fun hv hk => hdirty ?_, fun hv hk => hdirty ?_⟩
    · cases v with
      | true => rfl
      | false =>
        have hk : kind = .recall := h.resolve_left (by decide)
        simp only [Slice.dirtySource, hkind', hk]
        rfl
    · subst hv
      simp only [Slice.dirtySource, hkind', hk, Slice.fillBuffer_eq]
      rfl
    · subst hv
      have hkeeps : keeps (x.moveWaitOf env i false n (.settled .dirty)) =
          (x.moveWaitOf env i false n (.settled .dirty)).fillBuffer env i ⟨d, .dirtyReply⟩ := by
        rw [Slice.fillBuffer_eq, hkind', if_neg]
        generalize kind = k at hk
        revert hk
        cases k <;> decide
      rw [hkeeps]
      simp only [Slice.dirtySource, hkind']
      generalize kind = k at hk
      fin_cases hk <;> rfl
    · subst hv
      simp only [Slice.dirtySource, hkind', hk]
      rfl

end Sys2Proof.Machine

/-!
What a record does by itself (R59, R99 to R108, R206), how it ends (R28, R36, R37, R62), the settling of waits on a fenced agent (R161 to R164), and
the two timers (R40, R41, R189).
-/

namespace Sys2Proof.Machine

/-! ## A record in GATHER goes on by its kind -/

section
variable {env : Env} {i : RecIdx} {n : Agent} {tag : Tag} {x : Slice}

theorem Slice.respond_of_agent (h : x.records[i].originator = .agent n tag) (resp : Tag → Response) :
    x.respond i resp = x.sends n (.response (resp tag)) := by
  rw [Slice.respond, h]
  rfl

theorem Slice.progress_of_finished (hphase : x.records[i].phase ≠ .free) (hfin : x.records[i].finished = true) :
    x.progress env i = if x.noOps i then some (x.endRecord env i) else none := by
  simp only [Slice.progress]
  rw [if_neg hphase, if_pos hfin]

/-- A record in GATHER that is not finished goes on as its kind does. -/
theorem Slice.progress_snapshot (hphase : x.records[i].phase = .gather) (hfin : x.records[i].finished = false)
    (hkind : x.records[i].kind = .snapshot) : x.progress env i =
      if x.records[i].awaits || x.records[i].memRead then none
      else if x.records[i].originFenced then some (x.finish env i)
      else x.records[i].buffer.map fun b => (x.respond i fun t => .snapshotData t b.data).finish env i := by
  simp only [Slice.progress, hphase, hfin, hkind]
  cases x.records[i].buffer <;> rfl

theorem Slice.progress_maskedWrite (hphase : x.records[i].phase = .gather) (hfin : x.records[i].finished = false)
    (hkind : x.records[i].kind = .maskedWrite) : x.progress env i =
      if !x.records[i].ordered then (if x.records[i].baseKnown then some (x.orderWrite env i) else none)
      else if x.records[i].awaits || !x.noOps i then none
      else some ((if x.records[i].originFenced then x else x.respond i fun t => .writeDone t).finish env i) := by
  simp only [Slice.progress, hphase, hfin, hkind]
  rfl

theorem Slice.progress_scrub (hphase : x.records[i].phase = .gather) (hfin : x.records[i].finished = false)
    (hkind : x.records[i].kind = .scrub) : x.progress env i =
      if x.records[i].awaits then none
      else if !x.records[i].ordered then some (x.orderWrite env i)
      else if !x.noOps i then none
      else some (Slice.finish env i { x with toEngine := x.toEngine ++ [⟨.done, none⟩] }) := by
  simp only [Slice.progress, hphase, hfin, hkind]
  rfl

theorem Slice.progress_recall (hphase : x.records[i].phase = .gather) (hfin : x.records[i].finished = false)
    (hkind : x.records[i].kind = .recall) : x.progress env i =
      if x.records[i].awaits || !x.noOps i then none else some ((x.recallEdit env i).endRecord env i) := by
  simp only [Slice.progress, hphase, hfin, hkind]
  rfl

/-- A caching record goes on with its grant, where its condition holds. -/
theorem Slice.progress_of_grantReady (hready : x.records[i].grantReady = true) (hfin : x.records[i].finished = false) :
    x.progress env i = some (x.sendGrant env i) := by
  have hparts := hready
  simp only [Record.grantReady, Bool.and_eq_true, decide_eq_true_eq] at hparts
  obtain ⟨⟨⟨⟨⟨⟨⟨hphase, hcaching⟩, -⟩, -⟩, -⟩, -⟩, -⟩, -⟩ := hparts
  have hkind := (Kind.caching_iff _).mp hcaching
  simp only [Slice.progress]
  rw [hphase, hfin, hready]
  generalize x.records[i].kind = k at hkind
  fin_cases hkind <;> rfl

/-- A caching record of a fenced agent makes no grant: it waits, orders its last write, and ends (R62). -/
theorem Slice.progress_of_originFenced (hphase : x.records[i].phase = .gather) (hfin : x.records[i].finished = false)
    (hkind : x.records[i].kind ∈ [Kind.fetchShared, Kind.fetchOwned, Kind.promote]) (hfenced : x.records[i].originFenced = true) :
    x.progress env i =
      if x.records[i].awaits || x.records[i].memRead || x.records[i].victim.isSome then none
      else if !x.records[i].ordered && x.records[i].lastWrite.isSome then
        x.records[i].lastWrite.map fun d =>
          (x.orders (.fullWrite x.records[i].line d) (.record i)).updRec env i fun r => { r with ordered := true }
      else if x.noOps i then some ((x.fencedEdit env i).endRecord env i) else none := by
  have hready : x.records[i].grantReady = false := by
    rw [Record.grantReady, hfenced, Bool.not_true, Bool.and_false]
  simp only [Slice.progress]
  rw [hphase, hfin, hready, hfenced]
  generalize x.records[i].kind = k at hkind
  cases x.records[i].awaits with
  | true => fin_cases hkind <;> rfl
  | false =>
    cases x.records[i].memRead with
    | true => fin_cases hkind <;> rfl
    | false =>
      cases x.records[i].victim with
      | some v => fin_cases hkind <;> rfl
      | none =>
        cases x.records[i].lastWrite <;> cases x.records[i].ordered <;> fin_cases hkind <;> rfl

/-! ## The write of a MaskedWrite or Scrub (R102 to R106, R206) -/

theorem Slice.orderWrite_of_scrub {w : WriteData} (hwrite : x.records[i].write = some w) (hkind : x.records[i].kind = .scrub) :
    x.orderWrite env i = ((x.orders (.fullWrite x.records[i].line w.data) (.record i)).freeEntry env.sid x.records[i].line).updRec env i
      fun r => { r with ordered := true } := by
  simp only [Slice.orderWrite, hwrite, hkind]
  rfl

theorem Slice.orderWrite_of_buffer {w : WriteData} {b : Buffer} (hwrite : x.records[i].write = some w) (hkind : x.records[i].kind = .maskedWrite)
    (hbuffer : x.records[i].buffer = some b) :
    x.orderWrite env i = ((x.orders (.fullWrite x.records[i].line
      ⟨mergeBytes w.mask w.data.bytes b.data.bytes, mergedPoison w.data.poison w.mask b.data.poison⟩) (.record i)).freeEntry
        env.sid x.records[i].line).updRec env i fun r => { r with ordered := true } := by
  simp only [Slice.orderWrite, hwrite, hkind, hbuffer]
  rfl

theorem Slice.orderWrite_of_none {w : WriteData} (hwrite : x.records[i].write = some w) (hkind : x.records[i].kind = .maskedWrite)
    (hbuffer : x.records[i].buffer = none) :
    x.orderWrite env i = (Slice.freeEntry ((x.orders (.mergeWrite x.records[i].line w.data.bytes w.mask) (.record i)).orderPoisonIf w.data.poison
      x.records[i].line i) env.sid x.records[i].line).updRec env i fun r => { r with ordered := true } := by
  simp only [Slice.orderWrite, hwrite, hkind, hbuffer]
  rfl

end

/-! ## Merging (R106) -/

theorem getElem_mergeBytes (mask : ByteMask) (new base : LineData) (i : Fin 64) :
    (mergeBytes mask new base)[i] = if mask.getLsbD i then new[i] else base[i] := by
  simp only [mergeBytes, Fin.getElem_fin, Vector.getElem_ofFn]

/-- Settles O35: what each of the two kinds does once it can, and the merge. -/
theorem snapshotsAndMaskedWritesGoOn : Obligations.SnapshotsAndMaskedWritesGoOn := by
  unfold Obligations.SnapshotsAndMaskedWritesGoOn
  refine ⟨?_, getElem_mergeBytes, fun p base mask => ⟨?_, ?_, ?_⟩⟩
  · intro env i n tag x r hphase hfin horigin
    refine ⟨fun b hkind hawaits hread hbuffer hfenced => ?_, fun hkind hawaits hread hfenced => ?_,
      fun w b hkind hordered hbase hwrite hbuffer => ?_, ?_, fun hkind hordered hawaits hops => ?_⟩
    · rw [Slice.progress_snapshot hphase hfin hkind, hawaits, hread, hfenced, hbuffer, Option.map_some, Slice.respond_of_agent horigin]
      rfl
    · rw [Slice.progress_snapshot hphase hfin hkind, hawaits, hread, hfenced]
      rfl
    · rw [Slice.progress_maskedWrite hphase hfin hkind, hordered, hbase, Slice.orderWrite_of_buffer hwrite hkind hbuffer]
      rfl
    · intro w hkind hordered hbase hwrite hbuffer merged
      rw [Slice.progress_maskedWrite hphase hfin hkind, hordered, hbase, Slice.orderWrite_of_none hwrite hkind hbuffer]
      rfl
    · rw [Slice.progress_maskedWrite hphase hfin hkind, hordered, hawaits, hops, Slice.respond_of_agent horigin]
      rfl
  · rintro rfl
    rfl
  · rintro rfl hfull
    exact if_pos hfull
  · rintro rfl hpartial
    exact if_neg hpartial

/-! ## A record's end (R28, R36, R37) -/

theorem takeFirst_eq_none {α : Type} {p : α → Bool} {l : List α} (h : ∀ x ∈ l, p x = false) : takeFirst p l = none := by
  have hsome := takeFirst_isSome p l
  rw [List.any_eq_false.mpr fun x hx => by rw [h x hx]; decide] at hsome
  exact Option.isNone_iff_eq_none.mp (Option.isSome_eq_false_iff.mp hsome)

section
variable {env : Env} {i : RecIdx} {v : Waiter} {pre post : List Waiter} {x : Slice}

/-- The record passes with its line to the oldest waiter for it. -/
theorem Slice.endRecord_of_same_line (hqueue : x.waitQueue = pre ++ v :: post) (hline : v.line = x.records[i].line)
    (hpre : ∀ u ∈ pre, u.line ≠ x.records[i].line) :
    x.endRecord env i = Slice.startRecord env i v { x.endedSlice env.sid i with waitQueue := pre ++ post } := by
  rw [Slice.endRecord_eq, hqueue, takeFirst_append_cons post (fun u hu => decide_eq_false (hpre u hu)) (decide_eq_true hline)]

/-- Without a waiter for the line the record goes to the oldest waiter whose line is not held. -/
theorem Slice.endRecord_of_eligible (hother : ∀ u ∈ x.waitQueue, u.line ≠ x.records[i].line) (hqueue : x.waitQueue = pre ++ v :: post)
    (hv : (x.endedSlice env.sid i).held v.line = false) (hpre : ∀ u ∈ pre, (x.endedSlice env.sid i).held u.line = true) :
    x.endRecord env i = Slice.startRecord env i v { x.endedSlice env.sid i with waitQueue := pre ++ post } := by
  rw [Slice.endRecord_eq, takeFirst_eq_none fun u hu => decide_eq_false (hother u hu), hqueue,
    takeFirst_append_cons post (fun u hu => by rw [Slice.eligible, hpre u hu]; rfl) (by rw [Slice.eligible, hv]; rfl)]

/-- With no waiter to take it the record is FREE. -/
theorem Slice.endRecord_of_none (hother : ∀ u ∈ x.waitQueue, u.line ≠ x.records[i].line)
    (hheld : ∀ u ∈ x.waitQueue, (x.endedSlice env.sid i).held u.line = true) : x.endRecord env i = x.endedSlice env.sid i := by
  rw [Slice.endRecord_eq, takeFirst_eq_none fun u hu => decide_eq_false (hother u hu),
    takeFirst_eq_none fun u hu => by rw [Slice.eligible, hheld u hu]; rfl]

/-- A recall serves the DRAIN jobs of its agents, and the QUIESCE job if it was applied (R125). -/
def Record.serves (r : Record) : JobKind → Bool
  | .drain n => r.servesDrain.getLsbD n
  | .fence _ => false
  | .quiesce _ => r.servesQuiesce

/-- The jobs that an ended recall served have one recall in flight less (R127). -/
theorem Job.recallEnded_eq (r : Record) (j : Job) :
    Job.recallEnded r j = { j with inFlight := if r.serves j.kind then j.inFlight - 1 else j.inFlight } := by
  have hserved (served : Bool) : (if served then { j with inFlight := j.inFlight - 1 } else j) =
      { j with inFlight := if served then j.inFlight - 1 else j.inFlight } := by cases served <;> rfl
  refine Eq.trans ?_ (hserved (r.serves j.kind))
  rw [Job.recallEnded]
  cases j.kind <;> rfl

/-- A caching record of a fenced agent has a last write where it took Dirty data to a Revoke and still has it. -/
theorem Record.lastWrite_of {r : Record} (h : ∃ q ∈ r.waits, q.role = .owner ∧ q.probe = .revoke ∧ q.state = .settled .dirty) :
    r.lastWrite = r.buffer.map Buffer.data := by
  refine if_pos (List.any_eq_true.mpr ?_)
  obtain ⟨q, hq, hrole, hprobe, hstate⟩ := h
  exact ⟨q, hq, by simp [hrole, hprobe, hstate]⟩

theorem Record.lastWrite_of_not {r : Record} (h : ¬∃ q ∈ r.waits, q.role = .owner ∧ q.probe = .revoke ∧ q.state = .settled .dirty) :
    r.lastWrite = none := by
  refine if_neg fun hc => h ?_
  obtain ⟨q, hq, htest⟩ := List.any_eq_true.mp hc
  simp only [Bool.and_eq_true, decide_eq_true_eq] at htest
  obtain ⟨⟨hrole, hprobe⟩, hstate⟩ := htest
  exact ⟨q, hq, hrole, hprobe, hstate⟩

end

/-- Settles O36: the end of a record by the waiters that are left, and a fenced agent's record by what it still has to do. -/
theorem aRecordPassesOnAtItsEnd : Obligations.ARecordPassesOnAtItsEnd := by
  unfold Obligations.ARecordPassesOnAtItsEnd
  refine ⟨?_, ?_, ?_, ?_⟩
  · intro env i x r unreserved ended freed
    have hunreserved : x.dropReservation env.sid i = unreserved := by
      simp only [Slice.dropReservation, unreserved, r]
      cases x.reservationOf x.records[i].line <;> rfl
    have hended : ended = Job.recallEnded r := by
      refine funext fun j => Eq.trans ?_ (Job.recallEnded_eq r j).symm
      obtain ⟨k, left, inFlight, applied, late⟩ := j
      cases k <;> rfl
    have hfreed : x.endedSlice env.sid i = freed := by
      simp only [freed, ← hunreserved, hended, Slice.endedSlice, Slice.replaceRecord]
      rw [Slice.dropReservation_eq]
    rw [← hfreed]
    exact ⟨fun pre v post => Slice.endRecord_of_same_line, fun hother =>
      ⟨fun pre v post => Slice.endRecord_of_eligible hother, Slice.endRecord_of_none hother⟩⟩
  · intro env i x r hphase hfin
    rw [Slice.progress_of_finished hphase hfin]
    exact ⟨fun hops => if_neg (by rw [hops]; decide), fun hops => if_pos hops⟩
  · intro env i x r hphase hfin hkind hfenced waiting written
    have hwaiting : waiting ↔ (r.awaits || r.memRead || r.victim.isSome) = true := by
      simp [waiting, Option.ne_none_iff_isSome, or_assoc]
    rw [Slice.progress_of_originFenced hphase hfin hkind hfenced]
    refine ⟨fun h => if_pos (hwaiting.mp h), fun h d hwritten hbuffer hordered => ?_, fun h hnot => ?_⟩
    · rw [if_neg (hwaiting.not.mp h), show x.records[i].lastWrite = some d.data from (Record.lastWrite_of hwritten).trans (by rw [hbuffer]; rfl),
        show x.records[i].ordered = false from hordered]
      rfl
    · have hdone : ¬(!x.records[i].ordered && x.records[i].lastWrite.isSome) = true := by
        rcases hnot with hnot | hnot | hnot
        · rw [Record.lastWrite_of_not hnot, Option.isSome_none, Bool.and_false]
          decide
        · by_cases hwritten : written
          · rw [Record.lastWrite_of hwritten, show x.records[i].buffer = none from hnot, Option.map_none, Option.isSome_none, Bool.and_false]
            decide
          · rw [Record.lastWrite_of_not hwritten, Option.isSome_none, Bool.and_false]
            decide
        · rw [show x.records[i].ordered = true from hnot, Bool.not_true, Bool.false_and]
          decide
      rw [if_neg (hwaiting.not.mp h), if_neg hdone]
      exact ⟨fun hops => if_neg (by rw [hops]; decide), fun hops => if_pos hops⟩
  · intro env i x l edit
    have hrewrite (y : Slice) (e : Entry) : y.rewriteEntry l e = (match y.entryOf l with
        | some (w, _) => y.withWay (setOf l) w (.occupied (tagOf l) e)
        | none => y) := by
      rw [Slice.rewriteEntry]
      cases y.entryOf l <;> rfl
    refine List.foldl_ext _ _ _ fun y q _ => ?_
    obtain ⟨a, role, probe, state⟩ := q
    cases state with
    | awaitingReply => cases role <;> cases probe <;> rfl
    | replyAfterReturn => cases role <;> cases probe <;> rfl
    | awaitingReturn => cases role <;> cases probe <;> rfl
    | settled how =>
      cases role with
      | sharer => cases how <;> cases probe <;> rfl
      | owner =>
        cases probe with
        | revoke => cases how <;> rfl
        | peek => cases how <;> rfl
        | demote =>
          cases how with
          | clean => exact hrewrite y _
          | dirty => exact hrewrite y _
          | gone => rfl
          | returned => rfl
          | lost => rfl

/-! ## Waits on a fenced agent (R161 to R164) -/

section
variable {env : Env} {i : RecIdx} {v : Bool} {n : Agent} {q : Wait} {x : Slice}

theorem Slice.probeAgent_of_unfenced (k : ProbeKind) (role : Role) (h : x.fenced.getLsbD n = false) : x.probeAgent env i v k role n =
    (x.updRec env i fun r => r.setWaits v (r.waitsOn v ++ [⟨n, role, k, .awaitingReply⟩])).sends n
      (.probe ⟨k, handleOf env.sid i, x.records[i].lineOn v⟩) := if_neg (Bool.eq_false_iff.mp h)

theorem Slice.probeAgent_of_fenced (k : ProbeKind) (role : Role) (h : x.fenced.getLsbD n = true) : x.probeAgent env i v k role n =
    (x.updRec env i fun r => r.setWaits v (r.waitsOn v ++ [⟨n, role, k, .awaitingReply⟩])).settleFenced env i v n := if_pos h

/-- A wait that moves changes nothing of its record but the waits and the deadline. -/
theorem Slice.moveWaitOf_record (v : Bool) (n : Agent) (st : WaitState) : ∃ ws vs d, (x.moveWaitOf env i v n st).records[i] =
    { x.records[i] with waits := ws, victimWaits := vs, deadline := d } := by
  rw [Slice.moveWaitOf, Slice.updRec_self]
  cases v <;> exact ⟨_, _, _, rfl⟩

theorem Slice.lostOwner_of_poisoned {y : Slice} {r : Record} (hr : y.records[i] = r) (h : v = true ∨ r.kind = .recall) :
    y.lostOwner env i v = y.orders (.poisonWrite (r.lineOn v)) (.record i) := by
  subst hr
  cases v with
  | true => rfl
  | false =>
    simp only [Slice.lostOwner, h.resolve_left (by decide)]
    rfl

theorem Slice.lostOwner_of_reads {y : Slice} {r : Record} (hr : y.records[i] = r)
    (hkind : r.kind ∈ [Kind.fetchShared, .fetchOwned, .promote, .snapshot]) : y.lostOwner env i false =
      if r.originFenced then y.orders (.poisonWrite r.line) (.record i)
      else ((y.orders (.poisonWrite r.line) (.record i)).updRec env i Record.replan).orderRead env i := by
  subst hr
  simp only [Slice.lostOwner]
  generalize y.records[i].kind = k at hkind
  fin_cases hkind <;> rfl

/-- A lost owner's line under a MaskedWrite is written with what the mask leaves Poison (R162). -/
theorem Slice.lostOwner_of_maskedWrite {y : Slice} {r : Record} (hr : y.records[i] = r) {w : WriteData} (hkind : r.kind = .maskedWrite)
    (hwrite : r.write = some w) : y.lostOwner env i false =
      (Slice.freeEntry (if w.mask = BitVec.allOnes 64 then y.orders (.fullWrite r.line w.data) (.record i)
        else ((y.orders (.poisonWrite r.line) (.record i)).orders (.mergeWrite r.line w.data.bytes w.mask) (.record i)).orderPoisonIf
          w.data.poison r.line i) env.sid r.line).updRec env i fun r => { r with ordered := true } := by
  subst hr
  simp only [Slice.lostOwner, hkind, hwrite]
  rfl

theorem Slice.lostOwner_of_scrub {y : Slice} {r : Record} (hr : y.records[i] = r) {w : WriteData} (hkind : r.kind = .scrub)
    (hwrite : r.write = some w) : y.lostOwner env i false =
      ((y.orders (.fullWrite r.line w.data) (.record i)).freeEntry env.sid r.line).updRec env i fun r => { r with ordered := true } := by
  subst hr
  refine Eq.trans ?_ (Slice.orderWrite_of_scrub hwrite hkind)
  simp only [Slice.lostOwner, hkind]
  rfl

/-- What the fence notice makes of an owner's wait without a return: the owner is lost (R162). -/
theorem Slice.settleFenced_of_lost (hwait : (x.records[i].waitsOn v).find? (fun w => w.agent = n) = some q) (hrole : q.role = .owner)
    (hstate : q.state = .awaitingReply ∨ q.state = .awaitingReturn) :
    x.settleFenced env i v n = (x.moveWaitOf env i v n (.settled .lost)).lostOwner env i v := by
  obtain ⟨a, role, probe, state⟩ := q
  obtain rfl : role = .owner := hrole
  simp only [Slice.settleFenced, hwait]
  rcases hstate with hstate | hstate
  · obtain rfl : state = .awaitingReply := hstate
    rfl
  · obtain rfl : state = .awaitingReturn := hstate
    rfl

end

/-- Settles O37: a probe by whether its agent is fenced, and a wait on a fenced agent by its role and state. -/
theorem waitsOnAFencedAgentAreSettled : Obligations.WaitsOnAFencedAgentAreSettled := by
  unfold Obligations.WaitsOnAFencedAgentAreSettled
  refine ⟨?_, ?_⟩
  · intro env i v k role n x waiting
    exact ⟨Slice.probeAgent_of_unfenced k role, Slice.probeAgent_of_fenced k role⟩
  · intro env i v n q x r hwait lost poisoned unread
    obtain ⟨ws, vs, d, hlost⟩ := Slice.moveWaitOf_record (env := env) (i := i) (x := x) v n (.settled .lost)
    have hsettle (hrole : q.role = .owner) (hstate : unread) : x.settleFenced env i v n = lost.lostOwner env i v :=
      Slice.settleFenced_of_lost hwait hrole hstate
    refine ⟨fun ⟨how, hstate⟩ => ?_, fun hrole hstate => ?_, fun hrole hstate => ?_, fun hrole hstate h => ?_,
      fun hrole hstate hv hkind => ?_, fun w hwrite => ?_⟩
    · obtain ⟨a, role, probe, state⟩ := q
      obtain rfl : state = .settled how := hstate
      simp only [Slice.settleFenced, r, hwait]
    · obtain ⟨a, role, probe, state⟩ := q
      obtain rfl : role = .sharer := hrole
      obtain rfl : state = .awaitingReply := hstate
      simp only [Slice.settleFenced, r, hwait]
    · obtain ⟨a, role, probe, state⟩ := q
      obtain rfl : role = .owner := hrole
      obtain rfl : state = .replyAfterReturn := hstate
      simp only [Slice.settleFenced, r, hwait]
    · rw [hsettle hrole hstate]
      refine (Slice.lostOwner_of_poisoned hlost h).trans ?_
      cases v <;> rfl
    · subst hv
      rw [hsettle hrole hstate]
      exact (Slice.lostOwner_of_reads hlost hkind).trans rfl
    · intro merged written
      refine ⟨fun hrole hstate hv hkind => ?_, fun hrole hstate hv hkind => ?_⟩
      · subst hv
        rw [hsettle hrole hstate]
        exact (Slice.lostOwner_of_maskedWrite hlost hkind hwrite).trans rfl
      · subst hv
        rw [hsettle hrole hstate]
        exact (Slice.lostOwner_of_scrub hlost hkind hwrite).trans rfl

end Sys2Proof.Machine

/-!
When nothing follows at a slice (log 17): what a change may do so that a still slice stays still, and an event of one step and no more.
-/

namespace Sys2Proof.Machine

/-! ## Reading a set after a change of the directory, in canonical form or not -/

section
variable {α : Type} [DecidableEq α]

theorem Sparse.get_put_ne (d : α) (m : List (Nat × α)) {a b : Nat} (v : α) (h : b ≠ a) : Sparse.get d (Sparse.put d m a v) b = Sparse.get d m b := by
  induction m with
  | nil =>
    simp only [Sparse.put]
    split
    · rfl
    · simp [Sparse.get, h]
  | cons e m ih =>
    obtain ⟨k, w⟩ := e
    simp only [Sparse.put]
    split
    · split
      · rfl
      · simp [Sparse.get, h]
    · split
      · next hak =>
        subst hak
        split <;> simp [Sparse.get, h]
      · simp only [Sparse.get, ih]

theorem Sparse.get_put_self (d : α) (m : List (Nat × α)) (a : Nat) {v : α} (h : v ≠ d) : Sparse.get d (Sparse.put d m a v) a = v := by
  induction m with
  | nil => simp [Sparse.put, Sparse.get, h]
  | cons e m ih =>
    obtain ⟨k, w⟩ := e
    simp only [Sparse.put, if_neg h]
    split
    · simp [Sparse.get]
    · split
      · simp [Sparse.get]
      · next hne => simp only [Sparse.get, if_neg hne, ih]

end

section
variable {x : Slice} {p q : Nat} {d : DirSet} {v : WayIdx} {t : BitVec 15} {h : Handle}

/-- A set with a RESERVED way is not the default of the directory's table. -/
theorem DirSet.ne_empty_of_reserved (hv : d.ways[v] = .reserved t h) : d ≠ DirSet.empty := by
  rintro rfl
  have hempty (u : WayIdx) : DirSet.empty.ways[u] = .empty := by
    revert u
    decide
  rw [hempty] at hv
  cases hv

/-- A reservation that a changed set keeps is kept by the directory. -/
theorem Slice.putSet_reserved (hd : q = p → d.ways[v] = .reserved t h) (hx : (x.getSet q).ways[v] = .reserved t h) :
    ((x.putSet p d).getSet q).ways[v] = .reserved t h := by
  by_cases hq : q = p
  · have hdv := hd hq
    subst hq
    rw [Slice.getSet, Slice.putSet_dir, Sparse.get_put_self _ _ _ (DirSet.ne_empty_of_reserved hdv)]
    exact hdv
  · rw [Slice.getSet, Slice.putSet_dir, Sparse.get_put_ne _ _ _ hq]
    exact hx

end

/-- The reservations of `x` stand in `y`. -/
def Slice.KeepsReservations (x y : Slice) : Prop :=
  ∀ (p : Nat) (v : WayIdx) (t : BitVec 15) (h : Handle), (x.getSet p).ways[v] = .reserved t h → (y.getSet p).ways[v] = .reserved t h

section
variable {x : Slice} {p : Nat} {w : WayIdx} {a : Way}

theorem Slice.KeepsReservations.of_dir {y : Slice} (h : y.dir = x.dir) : x.KeepsReservations y := fun p v t k hv => by
  rw [Slice.getSet, h]
  exact hv

theorem Slice.KeepsReservations.of_ways (hw : ∀ t h, (x.getSet p).ways[w] ≠ .reserved t h) (recency : List WayIdx) :
    x.KeepsReservations (x.putSet p ⟨(x.getSet p).ways.set w a, recency⟩) := fun q v t h hv => by
  refine Slice.putSet_reserved (fun hq => ?_) hv
  subst hq
  have hne : v ≠ w := fun hvw => hw t h (hvw ▸ hv)
  exact (getElem_set_ways _ _ _ _).trans ((if_neg hne).trans hv)

end

/-! ## A still slice stays still -/

section
variable {env : Env} {x y z : Slice} {i : RecIdx}

theorem Slice.freeRecords_congr (h : ∀ j : RecIdx, y.records[j].phase = .free ↔ x.records[j].phase = .free) : y.freeRecords = x.freeRecords :=
  List.filter_congr fun j _ => decide_eq_decide.mpr (h j)

/-- Nothing follows after a change that lets no record go on, takes or frees no record, releases no line and settles no set. -/
theorem Slice.still_of_change (hx : x.still env) (hev : ∀ j : RecIdx, y.records[j].evictionDone = false)
    (hgo : ∀ j : RecIdx, y.records[j].goesOn (y.noOps j) = false)
    (hfree : ∀ j : RecIdx, y.records[j].phase = .free ↔ x.records[j].phase = .free)
    (hheld : ∀ l, x.held l = true → y.held l = true) (hset : ∀ p, y.settledSet p = true → x.settledSet p = true)
    (hops : y.noEngineOps = true → x.noEngineOps = true) (heng : y.engine = x.engine) (hpending : y.pendingQuiesce = x.pendingQuiesce)
    (hqueue : y.waitQueue = x.waitQueue) : y.still env := by
  rw [Slice.still_parts] at hx ⊢
  obtain ⟨-, harbiter, -, hengine⟩ := hx
  have hrecords := Slice.freeRecords_congr hfree
  have heligible : y.waitQueue.any y.eligible = true → x.waitQueue.any x.eligible = true := by
    rw [hqueue, List.any_eq_true, List.any_eq_true]
    exact fun ⟨w, hw, he⟩ => ⟨w, hw, Slice.eligible_of_held hheld w he⟩
  refine ⟨hev, ?_, hgo, Slice.engineActs_mono x y hengine heng hset hops hpending ?_ ?_⟩
  · rw [Slice.arbiterActs, hrecords]
    rw [Slice.arbiterActs] at harbiter
    cases hfreeRecords : x.freeRecords.isEmpty with
    | true => rw [Bool.not_true, Bool.and_false]
    | false =>
      rw [hfreeRecords, Bool.not_false, Bool.and_true] at harbiter
      rw [Bool.not_false, Bool.and_true]
      exact Bool.eq_false_iff.mpr fun he => by rw [heligible he] at harbiter; cases harbiter
  · rw [Slice.atRest, Slice.atRest, hrecords, hqueue]
    exact id
  · rw [hrecords]
    intro h
    obtain ⟨-, hnonempty⟩ := Bool.and_eq_true_iff.mp h
    rw [Slice.arbiterActs, hnonempty, Bool.and_true] at harbiter
    rw [hnonempty, harbiter]
    rfl

/-- Nothing follows where no record goes on, no waiter waits and the engine has no job. -/
theorem Slice.still_of_no_work (hev : ∀ j : RecIdx, x.records[j].evictionDone = false)
    (hgo : ∀ j : RecIdx, x.records[j].goesOn (x.noOps j) = false) (hqueue : x.waitQueue = []) (hjobs : x.engine.jobs = [])
    (hvisit : x.engine.visit = .idle) (hpending : x.pendingQuiesce = none) : x.still env := by
  rw [Slice.still_iff]
  refine ⟨hev, ?_, hgo, ?_⟩
  · rw [hqueue]
    rfl
  · simp [hjobs, hpending, Slice.walks, hvisit]

/-- `y` differs from `x` in its records and their operations at record i alone. -/
structure Slice.SameBut (i : RecIdx) (x y : Slice) : Prop where
  records : ∀ j : RecIdx, j ≠ i → y.records[j] = x.records[j]
  ops : ∀ j : RecIdx, j ≠ i → y.noOps j = x.noOps j

theorem Slice.SameBut.of_set {r : Record} (hrec : y.records = x.records.set i r)
    (hsub : ∃ ops, y.submission = x.submission ++ ops ∧ ∀ o ∈ ops, o.owner = .record i) : Slice.SameBut i x y := by
  obtain ⟨ops, hsub, howner⟩ := hsub
  refine ⟨fun j hj => ?_, fun j hj => ?_⟩
  · rw [hrec, Slice.getElem_set_records, if_neg hj]
  · have hothers : ops.all (fun o => o.owner != .record j) = true := List.all_eq_true.mpr fun o ho => by
      rw [howner o ho, bne_iff_ne]
      exact fun h => hj (OpOwner.record.inj h).symm
    rw [Slice.noOps, Slice.noOps, hsub, List.all_append, hothers, Bool.and_true]

theorem Slice.SameBut.of_set_same {r : Record} (hrec : y.records = x.records.set i r) (hsub : y.submission = x.submission) :
    Slice.SameBut i x y := .of_set hrec ⟨[], by rw [hsub, List.append_nil], by simp⟩

theorem Slice.still.evictionDone (h : x.still env) (j : RecIdx) : x.records[j].evictionDone = false := (Slice.still_parts env x).mp h |>.1 j

theorem Slice.still.goesOn (h : x.still env) (j : RecIdx) : x.records[j].goesOn (x.noOps j) = false := (Slice.still_parts env x).mp h |>.2.2.1 j

theorem Slice.SameBut.evictionDone (h : Slice.SameBut i x y) (hx : x.still env) (hi : y.records[i].evictionDone = false) (j : RecIdx) :
    y.records[j].evictionDone = false := by
  by_cases hj : j = i
  · exact hj ▸ hi
  · rw [h.records j hj]
    exact hx.evictionDone j

theorem Slice.SameBut.goesOn (h : Slice.SameBut i x y) (hx : x.still env) (hi : y.records[i].goesOn (y.noOps i) = false) (j : RecIdx) :
    y.records[j].goesOn (y.noOps j) = false := by
  by_cases hj : j = i
  · exact hj ▸ hi
  · rw [h.records j hj, h.ops j hj]
    exact hx.goesOn j

theorem Slice.SameBut.findEviction (h : Slice.SameBut i x y) (hx : x.still env) (hi : y.records[i].evictionDone = false) :
    y.findEviction = none := (Slice.findEviction_none y).mpr (h.evictionDone hx hi)

/-- The one record that can go on does. -/
theorem Slice.SameBut.progressAny (h : Slice.SameBut i x y) (hx : x.still env) (hi : y.progress env i = some z) : y.progressAny env = some z := by
  refine findSome?_of_first hi fun j hj => ?_
  have hgo := h.records j (Fin.ne_of_lt hj) ▸ h.ops j (Fin.ne_of_lt hj) ▸ hx.goesOn j
  rw [← Slice.progress_isSome env j y] at hgo
  exact Option.isNone_iff_eq_none.mp (Option.isSome_eq_false_iff.mp hgo)

/-- A record in use that keeps its lines, and does not go on, leaves its still slice so; a set that loses a reservation keeps the record. -/
theorem Slice.SameBut.still (h : Slice.SameBut i x y) (hx : x.still env) (hbusy : x.records[i].phase ≠ .free) (hbusy' : y.records[i].phase ≠ .free)
    (hline : y.records[i].line = x.records[i].line) (hvictim : y.records[i].victim = x.records[i].victim)
    (hkind : y.records[i].kind = .recall → x.records[i].kind = .recall)
    (hvisit : y.records[i].thisVisit = x.records[i].thisVisit) (hev : y.records[i].evictionDone = false)
    (hgo : y.records[i].goesOn (y.noOps i) = false)
    (hways : ∀ (p : Nat) (v : WayIdx) (t : BitVec 15) (k : Handle), (x.getSet p).ways[v] = .reserved t k →
      (∃ t k, (y.getSet p).ways[v] = .reserved t k) ∨ (p = setOf y.records[i].line ∧ y.records[i].kind ≠ .recall))
    (hops : y.noEngineOps = true → x.noEngineOps = true) (heng : y.engine = x.engine) (hpending : y.pendingQuiesce = x.pendingQuiesce)
    (hqueue : y.waitQueue = x.waitQueue) : y.still env := by
  refine Slice.still_of_change hx (h.evictionDone hx hev) (h.goesOn hx hgo) (fun j => ?_) (fun l => ?_) (fun p hp => ?_) hops heng hpending hqueue
  · by_cases hj : j = i
    · subst hj
      exact ⟨fun hf => absurd hf hbusy', fun hf => absurd hf hbusy⟩
    · rw [h.records j hj]
  · rw [Slice.held_iff, Slice.held_iff]
    rintro ⟨j, hphase, hl⟩
    refine ⟨j, ?_⟩
    by_cases hj : j = i
    · subst hj
      exact ⟨hbusy', by rwa [hline, hvictim]⟩
    · rw [h.records j hj]
      exact ⟨hphase, hl⟩
  · simp only [Slice.settledSet, Bool.and_eq_true, List.all_eq_true] at hp ⊢
    obtain ⟨hpways, hprecords⟩ := hp
    refine ⟨fun v hv => ?_, fun j hj => ?_⟩
    · cases hway : (x.getSet p).ways[v] with
      | empty => rfl
      | occupied t e => rfl
      | reserved t k =>
        rcases hways p v t k hway with ⟨t', k', hy⟩ | ⟨hline', hkind'⟩
        · have hpv := hpways v hv
          rw [hy] at hpv
          exact hpv
        · have hpi := hprecords i (List.mem_finRange i)
          rw [decide_eq_false hbusy', decide_eq_false hkind', decide_eq_true hline'.symm] at hpi
          exact hpi
    · have hpj := hprecords j hj
      by_cases hji : j = i
      · subst hji
        rw [hline, hvictim, hvisit, decide_eq_false hbusy'] at hpj
        rw [decide_eq_false hbusy]
        by_cases hrecall : y.records[j].kind = .recall
        · rw [decide_eq_true (hkind hrecall)]
          rwa [decide_eq_true hrecall] at hpj
        · rw [decide_eq_false hrecall] at hpj
          simp only [Bool.false_and, Bool.false_or] at hpj ⊢
          rw [hpj, Bool.or_true]
      · rwa [h.records j hji] at hpj

/-! ## Events of one step -/

theorem Slice.goOn_eq (env : Env) (x : Slice) : ∃ k, ∀ wake, x.goOn env wake = Slice.settle env true (k + 8) wake x :=
  ⟨1016 + 64 * x.waitQueue.length, fun wake => by rw [Slice.goOn, Slice.fuel]; exact congrArg (Slice.settle env true · wake x) (by omega)⟩

theorem Slice.settle_of_progress {k : Nat} {eng : Bool} (hev : x.findEviction = none) (hgo : x.progressAny env = some y) :
    Slice.settle env eng (k + 1) false x = Slice.settle env eng k false y := by
  simp [Slice.settle, hev, hgo]

theorem Slice.settle_of_eviction {k : Nat} {eng wake : Bool} (hev : x.findEviction = some i) :
    Slice.settle env eng (k + 1) wake x = Slice.settle env eng k true (x.completeEviction env i) := by
  simp [Slice.settle, hev]

theorem Slice.settle_of_engine {k : Nat} (hev : x.findEviction = none) (hgo : x.progressAny env = none) (hact : x.engineAct env = some y) :
    Slice.settle env true (k + 1) false x = Slice.settle env true k false y := by
  simp [Slice.settle, hev, hgo, hact]

/-- One record goes on, and then nothing follows. -/
theorem Slice.goOn_of_progress (hev : x.findEviction = none) (hgo : x.progressAny env = some y) (hy : y.still env) : x.goOn env false = y := by
  obtain ⟨k, hk⟩ := Slice.goOn_eq env x
  rw [hk, Slice.settle_of_progress hev hgo]
  exact Slice.settle_of_still env true false (k + 5) y hy

/-- An eviction completes, and then nothing follows. -/
theorem Slice.goOn_of_eviction {wake : Bool} (hev : x.findEviction = some i) (hy : (x.completeEviction env i).still env) :
    x.goOn env wake = x.completeEviction env i := by
  obtain ⟨k, hk⟩ := Slice.goOn_eq env x
  rw [hk, Slice.settle_of_eviction hev]
  exact Slice.settle_of_still env true true (k + 5) _ hy

end

end Sys2Proof.Machine

/-!
Arrivals at a still slice that no record's start follows: replies without a wait (R78), GrantAcks (R64, R65), deadlines (R41, R189), returns
(R79 to R84), and the requests that wait or are refused (R32).
-/

namespace Sys2Proof.Machine

/-! ## Changes that stillness does not see -/

section
variable {env : Env} {x y : Slice}

/-- The records, the waiters and the engine as before, and no reservation gone. -/
theorem Slice.still_of_paths (hx : x.still env) (hrec : y.records = x.records) (hops : ∀ j, y.noOps j = x.noOps j)
    (hengine : y.noEngineOps = true → x.noEngineOps = true) (hres : x.KeepsReservations y) (heng : y.engine = x.engine)
    (hpending : y.pendingQuiesce = x.pendingQuiesce) (hqueue : y.waitQueue = x.waitQueue) : y.still env := by
  refine Slice.still_of_change hx (fun j => ?_) (fun j => ?_) (fun j => ?_) (fun l => ?_) (fun p hp => ?_) hengine heng hpending hqueue
  · rw [hrec]
    exact hx.evictionDone j
  · rw [hrec, hops]
    exact hx.goesOn j
  · rw [hrec]
  · rw [Slice.held_iff, Slice.held_iff, hrec]
    exact id
  · simp only [Slice.settledSet, Bool.and_eq_true, List.all_eq_true, hrec] at hp ⊢
    obtain ⟨hpways, hprecords⟩ := hp
    refine ⟨fun v hv => ?_, hprecords⟩
    cases hway : (x.getSet p).ways[v] with
    | empty => rfl
    | occupied t e => rfl
    | reserved t k =>
      have hpv := hpways v hv
      rw [hres p v t k hway] at hpv
      exact hpv

/-- A deadline gone or begun changes nothing of what can go on. -/
theorem Slice.still_of_deadlines (hx : x.still env) (hrec : ∀ j : RecIdx, ∃ d, y.records[j] = x.records[j].withDeadline d)
    (hsub : y.submission = x.submission) (hdir : y.dir = x.dir) (heng : y.engine = x.engine)
    (hpending : y.pendingQuiesce = x.pendingQuiesce) (hqueue : y.waitQueue = x.waitQueue) : y.still env := by
  have hops (j : RecIdx) : y.noOps j = x.noOps j := Slice.noOps_congr hsub j
  refine Slice.still_of_change hx (fun j => ?_) (fun j => ?_) (fun j => ?_) (fun l => ?_) (fun p hp => ?_) (fun h => ?_) heng hpending hqueue
  · obtain ⟨d, hd⟩ := hrec j
    rw [hd]
    exact hx.evictionDone j
  · obtain ⟨d, hd⟩ := hrec j
    rw [hd, hops]
    exact hx.goesOn j
  · obtain ⟨d, hd⟩ := hrec j
    rw [hd]
    rfl
  · rw [Slice.held_iff, Slice.held_iff]
    rintro ⟨j, hj⟩
    obtain ⟨d, hd⟩ := hrec j
    exact ⟨j, hd ▸ hj⟩
  · simp only [Slice.settledSet, Bool.and_eq_true, List.all_eq_true] at hp ⊢
    obtain ⟨hpways, hprecords⟩ := hp
    refine ⟨fun v hv => ?_, fun j hj => ?_⟩
    · have hpv := hpways v hv
      rwa [Slice.getSet, hdir] at hpv
    · obtain ⟨d, hd⟩ := hrec j
      have hpj := hprecords j hj
      rw [hd] at hpj
      exact hpj
  · rwa [Slice.noEngineOps, hsub] at h

theorem Slice.still.sends (hx : x.still env) (n : Agent) (m : LinkMsg) : (x.sends n m).still env :=
  Slice.still_of_same env x _ hx rfl rfl rfl rfl rfl rfl

end

/-! ## Replies without a wait (R71, R78) -/

/-- A wait takes no such reply. -/
def Wait.ignores (q : Wait) (rep : Reply) : Prop :=
  q.state = .awaitingReturn ∨ (∃ how, q.state = .settled how) ∨ (q.role = .sharer ∧ ∃ d, rep = .dirty d) ∨ (q.state = .replyAfterReturn ∧ rep ≠ .gone)

section
variable {env : Env} {n : Agent} {line : LineAddr} {rep : Reply} {i : RecIdx} {v : Bool} {q : Wait} {h : Handle} {x : Slice}

theorem Slice.takeReply_of_ignores (hq : q.ignores rep) : x.takeReply env n line rep i v q = none := by
  obtain ⟨a, role, probe, state⟩ := q
  rcases hq with hstate | ⟨how, hstate⟩ | ⟨hrole, d, rfl⟩ | ⟨hstate, hrep⟩
  · obtain rfl : state = .awaitingReturn := hstate
    cases rep <;> cases role <;> rfl
  · obtain rfl : state = .settled how := hstate
    cases rep <;> cases role <;> rfl
  · obtain rfl : role = .sharer := hrole
    cases state <;> rfl
  · obtain rfl : state = .replyAfterReturn := hstate
    cases rep with
    | gone => exact absurd rfl hrep
    | clean => cases role <;> rfl
    | dirty d => cases role <;> rfl

/-- The reply finds no wait that takes it. -/
theorem Slice.replyWait_bind_none (hnone : x.records[handleIdx h].phase ≠ .gather
    ∨ (x.records[handleIdx h].line ≠ line ∧ x.records[handleIdx h].victim ≠ some line)
    ∨ ((x.records[handleIdx h].line = line → ∀ q ∈ x.records[handleIdx h].waits, q.agent = n → q.ignores rep)
      ∧ (x.records[handleIdx h].line ≠ line → ∀ q ∈ x.records[handleIdx h].victimWaits, q.agent = n → q.ignores rep))) :
    ((x.replyWait n h line).bind fun (i, v, w) => x.takeReply env n line rep i v w) = none := by
  cases hwait : x.replyWait n h line with
  | none => rfl
  | some found =>
    obtain ⟨i, v, q⟩ := found
    have hfound := hwait
    simp only [Slice.replyWait] at hfound
    have hgather : x.records[handleIdx h].phase = .gather := by
      by_contra hphase
      rw [if_neg hphase] at hfound
      cases hfound
    rw [if_pos hgather] at hfound
    have htaken (v' : Bool) (hq : ((x.records[handleIdx h].waitOf v' n).map fun w => (handleIdx h, v', w)) = some (i, v, q)) :
        q ∈ x.records[handleIdx h].waitsOn v' ∧ q.agent = n := by
      obtain ⟨w, hw, heq⟩ := Option.map_eq_some_iff.mp hq
      obtain ⟨-, -, rfl⟩ : handleIdx h = i ∧ v' = v ∧ w = q := by simpa using heq
      have hagent := List.find?_some (p := fun w : Wait => decide (w.agent = n)) hw
      exact ⟨List.mem_of_find?_eq_some hw, of_decide_eq_true hagent⟩
    have hignores : q.ignores rep := by
      rcases hnone with hphase | ⟨hline, hvictim⟩ | ⟨hrequest, hvictim⟩
      · exact absurd hgather hphase
      · rw [if_neg hline, if_neg hvictim] at hfound
        cases hfound
      · by_cases hline : x.records[handleIdx h].line = line
        · rw [if_pos hline] at hfound
          obtain ⟨hmem, hagent⟩ := htaken false hfound
          exact hrequest hline q hmem hagent
        · rw [if_neg hline] at hfound
          by_cases hv : x.records[handleIdx h].victim = some line
          · rw [if_pos hv] at hfound
            obtain ⟨hmem, hagent⟩ := htaken true hfound
            exact hvictim hline q hmem hagent
          · rw [if_neg hv] at hfound
            cases hfound
    exact Slice.takeReply_of_ignores hignores

end

/-- Settles O31: a fenced agent's reply is dropped, and one that no wait takes is reported. -/
theorem anUnmatchedReplyIsAFault : Obligations.AnUnmatchedReplyIsAFault := by
  unfold Obligations.AnUnmatchedReplyIsAFault
  intro sid n h line rep ms s hpin hpath hstill x r arrival code noWait
  have hexec : exec arrival s = .next ((s.afterSliceMsg sid n ms).updSlice sid fun x =>
      (x.replyArrives (s.env sid) n h line rep).goOn (s.env sid) false) := by
    cases rep with
    | gone => exact whileReleased_takeFromLink (g := fun env => Slice.replyArrives env n h line .gone) hpin hpath rfl
    | clean => exact whileReleased_takeFromLink (g := fun env => Slice.replyArrives env n h line .clean) hpin hpath rfl
    | dirty d => exact whileReleased_takeFromLink (g := fun env => Slice.replyArrives env n h line (.dirty d)) hpin hpath rfl
  refine ⟨fun hfenced => hexec.trans (next_updSlice_same ?_), fun hfenced hnone => hexec.trans (next_updSlice_congr ?_)⟩
  · have hdropped : x.replyArrives (s.env sid) n h line rep = x := if_pos hfenced
    exact (congrArg (Slice.goOn (s.env sid) false) hdropped).trans (Slice.goOn_of_still _ _ _ hstill)
  · have hcode : rep.code = code := by cases rep <;> rfl
    have hreported : x.replyArrives (s.env sid) n h line rep = x.sends n (.fault .reply code (some line) none) := by
      refine (if_neg (Bool.eq_false_iff.mp hfenced)).trans ?_
      rw [Slice.replyWait_bind_none hnone, hcode]
      rfl
    exact (congrArg (Slice.goOn (s.env sid) false) hreported).trans (Slice.goOn_of_still _ _ _ (hstill.sends _ _))

/-! ## GrantAcks (R64, R65) -/

section
variable {env : Env} {n : Agent} {i : RecIdx} {x : Slice}

theorem Record.confirmsFor_iff {r : Record} : r.confirmsFor n = true ↔
    r.phase = .confirm ∧ r.finished = false ∧ ∃ tag, r.originator = .agent n tag := by
  rw [Record.confirmsFor, Bool.and_eq_true, Bool.and_eq_true, decide_eq_true_iff, Bool.not_eq_true', and_assoc]
  refine and_congr_right fun _ => and_congr_right fun _ => ?_
  cases r.originator with
  | agent a t => simp
  | sweep => simp
  | management => simp

/-- A record that ends where nothing waits for it, its line or its operations is FREE, and nothing else changes. -/
theorem Slice.endRecord_of_alone (hqueue : x.waitQueue = []) (hjobs : x.engine.jobs = []) (hres : x.reservationOf x.records[i].line = none) :
    x.endRecord env i = { x with records := x.records.set i Record.free } := by
  rw [Slice.endRecord_of_none (by rw [hqueue]; simp) (by rw [hqueue]; simp), Slice.endedSlice, Slice.replaceRecord]
  have hdrop : x.dropReservation env.sid i = x := by simp only [Slice.dropReservation, hres]
  rw [hdrop, hjobs, List.map_nil, ← hjobs]

theorem Record.fixDeadline_fields (r : Record) : ∃ d, r.fixDeadline env = r.withDeadline d := ⟨_, rfl⟩

/-- A record that has made its last act at a slice without other work ends, and nothing follows. -/
theorem Slice.goOn_finish (hx : x.still env) (hphase : x.records[i].phase ≠ .free) (hops : x.noOps i = true) (hqueue : x.waitQueue = [])
    (hjobs : x.engine.jobs = []) (hvisit : x.engine.visit = .idle) (hpending : x.pendingQuiesce = none)
    (hres : x.reservationOf x.records[i].line = none) (hvictim : x.records[i].victim = none) :
    (x.finish env i).goOn env false = { x with records := x.records.set i Record.free } := by
  have hsame : Slice.SameBut i x (x.finish env i) := .of_set_same rfl rfl
  obtain ⟨d, hd⟩ := Record.fixDeadline_fields (env := env) { x.records[i] with finished := true }
  have hrec : (x.finish env i).records[i] = Record.withDeadline d { x.records[i] with finished := true } :=
    (Slice.updRec_self _ _ _ _).trans hd
  have hev : (x.finish env i).records[i].evictionDone = false := by
    rw [hrec]
    simp [Record.evictionDone, Record.withDeadline, -Fin.getElem_fin, hvictim]
  have hgo : (x.finish env i).progress env i = some { x with records := x.records.set i Record.free } := by
    rw [Slice.progress_of_finished (by rw [hrec]; exact hphase) (by rw [hrec]; rfl), if_pos (show (x.finish env i).noOps i = true from hops),
      Slice.endRecord_of_alone (x := x.finish env i) hqueue hjobs (by rw [hrec]; exact hres), Slice.finish, Slice.updRec, Vector.set_set]
  refine Slice.goOn_of_progress (hsame.findEviction hx hev) (hsame.progressAny hx hgo) ?_
  have hsame' : Slice.SameBut i x { x with records := x.records.set i Record.free } := .of_set_same rfl rfl
  have hfree : ({ x with records := x.records.set i Record.free } : Slice).records[i] = Record.free :=
    (Slice.getElem_set_records _ _ _ _).trans (if_pos rfl)
  exact Slice.still_of_no_work (hsame'.evictionDone hx (by rw [hfree]; rfl)) (hsame'.goesOn hx (by rw [hfree]; rfl)) hqueue hjobs hvisit hpending

end

/-- Settles O32: the GrantAck by its match, and the end of a record that has nothing more to do. -/
theorem aGrantAckEndsItsRecord : Obligations.AGrantAckEndsItsRecord := by
  unfold Obligations.AGrantAckEndsItsRecord
  intro sid n h ms s hpin hpath x i r t matched
  have hexec : exec (.grantAckArrival sid n) s = .next (t.updSlice sid fun x => (x.grantAckArrives (s.env sid) n h).goOn (s.env sid) false) :=
    whileReleased_takeFromLink (g := fun env => Slice.grantAckArrives env n h) hpin hpath rfl
  have hmatched (hfenced : x.fenced.getLsbD n = false) (hm : matched) : x.grantAckArrives (s.env sid) n h = x.finish (s.env sid) i :=
    (if_neg (Bool.eq_false_iff.mp hfenced)).trans (if_pos (Record.confirmsFor_iff.mpr hm))
  refine ⟨fun hfenced hstill => hexec.trans (next_updSlice_same ?_), fun hfenced hm => hexec.trans (next_updSlice_congr ?_),
    fun hfenced hm hstill hops hqueue hjobs hvisit hpending hres hvictim => hexec.trans (next_updSlice_congr ?_),
    fun hfenced hm hstill => hexec.trans (next_updSlice_congr ?_)⟩
  · have hdropped : x.grantAckArrives (s.env sid) n h = x := if_pos hfenced
    exact (congrArg (Slice.goOn (s.env sid) false) hdropped).trans (Slice.goOn_of_still _ _ _ hstill)
  · exact congrArg (Slice.goOn (s.env sid) false) (hmatched hfenced hm)
  · have hm' := hm
    obtain ⟨hphase, -, -⟩ := hm'
    refine (congrArg (Slice.goOn (s.env sid) false) (hmatched hfenced hm)).trans ?_
    exact Slice.goOn_finish hstill (by rw [show x.records[i].phase = .confirm from hphase]; decide) hops hqueue hjobs hvisit hpending hres hvictim
  · have hreported : x.grantAckArrives (s.env sid) n h = x.sends n (.fault .reply 0x04 (if r.phase = .free then none else some r.line) none) :=
      (if_neg (Bool.eq_false_iff.mp hfenced)).trans (if_neg fun hc => hm (Record.confirmsFor_iff.mp hc))
    exact (congrArg (Slice.goOn (s.env sid) false) hreported).trans (Slice.goOn_of_still _ _ _ (hstill.sends _ _))

/-! ## Timers (R40, R41, R189) -/

/-- One message to every member of a set. -/
theorem Slice.foldl_send (m : LinkMsg) (a : AgentSet) (x : Slice) : (AgentSet.toList a).foldl (fun y n => y.send n m) x =
    { x with toLink := Vector.ofFn fun n => if a.getLsbD n then x.toLink[n] ++ [m] else x.toLink[n] } := by
  have hfold (ns : List Agent) (x : Slice) : ns.foldl (fun y n => y.send n m) x =
      { x with toLink := ns.foldl (fun (v : Vector (List LinkMsg) 8) (n : Agent) => v.set n (v[n] ++ [m])) x.toLink } := by
    induction ns generalizing x with
    | nil => rfl
    | cons n ns ih => exact ih _
  rw [hfold, foldl_set_toList (· ++ [m])]

/-- A set gathered from the agents of some waits. -/
theorem AgentSet.getLsbD_foldl_agents (ws : List Wait) (a : AgentSet) (n : Agent) :
    (ws.foldl (fun a w => AgentSet.insert a w.agent) a).getLsbD n = (a.getLsbD n || ws.any fun w => w.agent = n) := by
  induction ws generalizing a with
  | nil => simp
  | cons w ws ih =>
    rw [List.foldl_cons, ih, AgentSet.getLsbD_insert, List.any_cons, Bool.or_assoc]
    simp only [eq_comm]

theorem Record.getLsbD_awaited (r : Record) (n : Agent) : r.awaited.getLsbD n =
    ((r.waits ++ r.victimWaits).any (fun q => q.live && q.agent = n) || (r.phase = .confirm && !r.finished && r.isFrom n)) := by
  have hwaits : (((r.waits ++ r.victimWaits).filter Wait.live).foldl (fun a w => AgentSet.insert a w.agent) 0#8).getLsbD n =
      (r.waits ++ r.victimWaits).any fun q => q.live && q.agent = n := by
    rw [AgentSet.getLsbD_foldl_agents, BitVec.getLsbD_zero, Bool.false_or, List.any_filter]
  obtain ⟨phase, originator, kind, line, waits, victim, victimWaits, memRead, buffer, write, plan, deadline, originFenced, exclusive, revokeSet,
    servesDrain, servesQuiesce, thisVisit, ordered, finished⟩ := r
  simp only [Record.awaited, Record.isFrom]
  rw [← hwaits]
  cases phase with
  | free => cases originator <;> simp
  | gather => cases originator <;> simp
  | confirm =>
    cases originator with
    | sweep => simp
    | management => simp
    | agent a t =>
      cases finished with
      | true => simp
      | false => simp [-BitVec.getLsbD_eq_getElem, AgentSet.getLsbD_insert, eq_comm]

section
variable {s : State}

theorem exec_flushTimerExpiry (hpin : s.resetPin = .released) : exec .flushTimerExpiry s = .next
    (if s.flushExpired then (s.tellAgents .flushTimeout s.mgmt.quiesce.flushPending).updMgmt Mgmt.enterSweeping else s) :=
  congrArg Host.Outcome.next (if_pos hpin)

theorem State.flushExpired_eq {e : Nat} (h : s.mgmt.quiesce.timer = some e) :
    s.flushExpired = (s.mgmt.quiesce.state = .flushing && decide (e ≤ s.now)) := by
  rw [State.flushExpired, h]

end

/-- Settles O33: an expired deadline is reported to the awaited agents, and the flush timer ends the flush. -/
theorem timersExpireAtTheirTime : Obligations.TimersExpireAtTheirTime := by
  unfold Obligations.TimersExpireAtTheirTime
  refine ⟨?_, ?_⟩
  · intro h e s hpin sid i x r awaited hstill hdeadline
    have hexec : exec (.responseDeadlineExpiry h) s = .next (s.updSlice sid fun x => (x.expire (s.env sid) i).goOn (s.env sid) false) :=
      whileReleased_of_released _ _ hpin
    have hexpires : r.expiresAt (s.env sid).now = decide (e ≤ s.now) := by
      rw [Record.expiresAt, hdeadline]
      rfl
    refine ⟨fun htime => hexec.trans (next_updSlice_congr ?_), fun htime => hexec.trans (next_updSlice_same ?_)⟩
    · have hexpire : x.expire (s.env sid) i = { x with
          records := x.records.set i { r with deadline := .expired }
          toLink := Vector.ofFn fun n => if awaited n then x.toLink[n] ++ [.timeout r.line] else x.toLink[n] } := by
        refine (if_pos (hexpires.trans (decide_eq_true htime))).trans ((Slice.foldl_send _ _ _).trans ?_)
        simp only [awaited, ← Record.getLsbD_awaited]
        rfl
      refine (congrArg (Slice.goOn (s.env sid) false) hexpire).trans (Slice.goOn_of_still _ _ _ ?_)
      refine Slice.still_of_deadlines hstill (fun j => ?_) rfl rfl rfl rfl rfl
      by_cases hj : j = i
      · subst hj
        exact ⟨.expired, (Slice.getElem_set_records _ _ _ _).trans (if_pos rfl)⟩
      · exact ⟨_, (Slice.getElem_set_records _ _ _ _).trans (if_neg hj)⟩
    · have hexpire : x.expire (s.env sid) i = x := if_neg (by rw [hexpires, decide_eq_true_iff]; omega)
      exact (congrArg (Slice.goOn (s.env sid) false) hexpire).trans (Slice.goOn_of_still _ _ _ hstill)
  · intro e s hpin htimer q
    rw [exec_flushTimerExpiry hpin, State.flushExpired_eq htimer]
    refine ⟨fun hstate htime => ?_, fun hnot => ?_⟩
    · rw [decide_eq_true hstate, decide_eq_true htime, State.tellAgents_eq]
      rfl
    · refine congrArg _ (if_neg ?_)
      rw [Bool.and_eq_true, decide_eq_true_iff, decide_eq_true_iff]
      rintro ⟨hstate, htime⟩
      rcases hnot with h | h
      · exact h hstate
      · omega

end Sys2Proof.Machine

/-!
Returns at their arrival (R79 to R84, R173) and the requests that do not start (R32).
-/

namespace Sys2Proof.Machine

/-! ## Returns (R79 to R84) -/

section
variable {env : Env} {sid : SliceId} {n : Agent} {tag : Tag} {line : LineAddr} {d : Option Poisoned} {w : WayIdx} {i : RecIdx} {v : Bool} {x : Slice}

/-- The record has settled a Clean or Dirty reply of the agent to a Revoke or Demote (R80). -/
theorem Record.gaveUp_iff {r : Record} : r.gaveUp v n = true ↔ ∃ q ∈ r.waitsOn v,
    q.agent = n ∧ q.state ∈ [WaitState.settled .clean, .settled .dirty] ∧ q.probe ∈ [ProbeKind.revoke, .demote] := by
  simp [Record.gaveUp, and_assoc]

theorem Slice.acceptsReturn_of_unheld (hentry : x.entryOf line = some (w, .owned n)) (hunheld : x.holder line = none) :
    x.acceptsReturn n line = true := by
  simp only [Slice.acceptsReturn, hentry, Slice.holderOf, hunheld]
  simp

theorem Slice.acceptsReturn_of_held (hentry : x.entryOf line = some (w, .owned n)) (hholder : x.holderOf line = some (i, v)) :
    x.acceptsReturn n line = !x.records[i].gaveUp v n := by
  simp only [Slice.acceptsReturn, hentry, hholder]
  simp

theorem Slice.acceptsReturn_of_other (hentry : ∀ w, x.entryOf line ≠ some (w, .owned n)) : x.acceptsReturn n line = false := by
  rw [Slice.acceptsReturn]
  cases he : x.entryOf line with
  | none => rfl
  | some found =>
    obtain ⟨w, e⟩ := found
    cases e with
    | shared a => rfl
    | owned b =>
      have hb : b ≠ n := fun h => hentry w (h ▸ he)
      simp [hb]

theorem Slice.returnArrives_of_accepted (hfenced : x.fenced.getLsbD n = false) (haccepts : x.acceptsReturn n line = true) :
    x.returnArrives env n tag line d =
      (((x.orderReturn line d).freeEntry env.sid line).sends n (.response (.returnDone tag))).absorb env n line d :=
  (if_neg (Bool.eq_false_iff.mp hfenced)).trans (if_pos haccepts)

theorem Slice.returnArrives_of_refused (hfenced : x.fenced.getLsbD n = false) (haccepts : x.acceptsReturn n line = false) :
    x.returnArrives env n tag line d = x.sends n (.fault .request (if d.isSome then 0x08 else 0x09) (some line) (some tag)) :=
  (if_neg (Bool.eq_false_iff.mp hfenced)).trans (if_neg (Bool.eq_false_iff.mp haccepts))

theorem Slice.absorb_of_unheld (h : x.holder line = none) : x.absorb env n line d = x := by
  rw [Slice.absorb, Slice.holderOf, h]
  rfl

/-- An accepted return is written by the slice itself, and no record or engine waits for it. -/
theorem Slice.orderReturn_frame (x : Slice) (line : LineAddr) (d : Option Poisoned) :
    x.orderReturn line d = { x with submission := x.submission ++ (d.map fun d => ⟨.fullWrite line d, .accepted⟩).toList } := by
  cases d with
  | none => simp [Slice.orderReturn]
  | some d => rfl

theorem Slice.noOps_append_accepted {y : Slice} {ops : List Ordered} (hsub : y.submission = x.submission ++ ops)
    (howner : ∀ o ∈ ops, o.owner = .accepted) (j : RecIdx) : y.noOps j = x.noOps j := by
  have hothers : ops.all (fun o => o.owner != .record j) = true := List.all_eq_true.mpr fun o ho => by rw [howner o ho]; rfl
  rw [Slice.noOps, Slice.noOps, hsub, List.all_append, hothers, Bool.and_true]

theorem Slice.noEngineOps_of_append {y : Slice} {ops : List Ordered} (hsub : y.submission = x.submission ++ ops) (h : y.noEngineOps = true) :
    x.noEngineOps = true := by
  rw [Slice.noEngineOps, hsub, List.all_append, Bool.and_eq_true] at h
  exact h.1

/-- The owner's return of an unheld line: the write, the entry freed, and ReturnDone; nothing follows. -/
theorem Slice.returnArrives_of_unheld (hx : x.still env) (hfenced : x.fenced.getLsbD n = false)
    (hentry : x.entryOf line = some (w, .owned n)) (hunheld : x.holder line = none) :
    (x.returnArrives env n tag line d).goOn env false =
      ((x.orderReturn line d).withWayOut (setOf line) w .empty).sends n (.response (.returnDone tag)) := by
  have hframe := Slice.orderReturn_frame x line d
  have hentry' : (x.orderReturn line d).entryOf line = some (w, .owned n) := by rw [hframe]; exact hentry
  have hunheld' : (x.orderReturn line d).holder line = none := by rw [hframe]; exact hunheld
  have hfreed : (x.orderReturn line d).freeEntry env.sid line = (x.orderReturn line d).withWayOut (setOf line) w .empty := by
    rw [Slice.freeEntry_of_entry hentry', Slice.freedWay_of_unheld hunheld']
  rw [Slice.returnArrives_of_accepted hfenced (Slice.acceptsReturn_of_unheld hentry hunheld), hfreed]
  have habsorbed : (((x.orderReturn line d).withWayOut (setOf line) w .empty).sends n (.response (.returnDone tag))).absorb env n line d =
      ((x.orderReturn line d).withWayOut (setOf line) w .empty).sends n (.response (.returnDone tag)) := Slice.absorb_of_unheld hunheld'
  rw [habsorbed]
  refine Slice.goOn_of_still _ _ _ (Slice.still.sends ?_ _ _)
  rw [hframe]
  have hsub : ({ x with submission := x.submission ++ (d.map fun d => (⟨.fullWrite line d, .accepted⟩ : Ordered)).toList } : Slice).submission =
      x.submission ++ (d.map fun d => (⟨.fullWrite line d, .accepted⟩ : Ordered)).toList := rfl
  have hoccupied (t : BitVec 15) (h : Handle) : (x.getSet (setOf line)).ways[w] ≠ .reserved t h := by
    rw [Slice.entryOf_some hentry]
    exact Way.noConfusion
  refine Slice.still_of_paths hx rfl (Slice.noOps_append_accepted hsub fun o ho => ?_) (Slice.noEngineOps_of_append hsub)
    (Slice.KeepsReservations.of_ways hoccupied _) rfl rfl rfl
  cases d with
  | none => cases ho
  | some d =>
    rw [List.mem_singleton.mp ho]

end

/-- Settles O28: the return by its sender's part in the entry and by the record that holds the line. -/
theorem aReturnIsDecidedAtItsArrival : Obligations.AReturnIsDecidedAtItsArrival := by
  unfold Obligations.AReturnIsDecidedAtItsArrival
  refine ⟨?_, ?_⟩
  · intro sid n tag line d ms s hpin hpath hstill x t hroom gaveUp written
    have htaken : (d.isSome && x.holdsBackReturns) = false := by
      rcases hroom with rfl | hlt
      · rfl
      · rw [Slice.holdsBackReturns, decide_eq_false (by exact Nat.not_le.mpr hlt), Bool.and_false]
    have hexec : exec (.returnArrival sid n) s =
        .next (t.updSlice sid fun x => (x.returnArrives (s.env sid) n tag line d).goOn (s.env sid) false) :=
      whileReleased_takeFromLink (g := fun env => Slice.returnArrives env n tag line d) hpin hpath (if_neg (Bool.eq_false_iff.mp htaken))
    have hwritten (x : Slice) : x.orderReturn line d = written x := by
      cases d <;> rfl
    refine ⟨fun hfenced => hexec.trans (next_updSlice_same ?_), fun hfenced => ⟨fun w hentry hunheld => hexec.trans (next_updSlice_congr ?_),
      fun w i v hentry hholder hkept => hexec.trans (next_updSlice_congr ?_), fun hnot => hexec.trans (next_updSlice_congr ?_)⟩⟩
    · have hdropped : x.returnArrives (s.env sid) n tag line d = x := if_pos hfenced
      exact (congrArg (Slice.goOn (s.env sid) false) hdropped).trans (Slice.goOn_of_still _ _ _ hstill)
    · rw [← hwritten]
      exact Slice.returnArrives_of_unheld hstill hfenced hentry (Slice.holder_eq_none hunheld)
    · have haccepts : x.acceptsReturn n line = true := by
        rw [Slice.acceptsReturn_of_held hentry hholder, Bool.not_eq_true', Bool.eq_false_iff]
        exact fun hc => hkept (Record.gaveUp_iff.mp hc)
      rw [← hwritten]
      exact congrArg (Slice.goOn (s.env sid) false) (Slice.returnArrives_of_accepted hfenced haccepts)
    · have hrefused : x.acceptsReturn n line = false := by
        rcases hnot with hother | ⟨i, v, hholder, hgave⟩
        · exact Slice.acceptsReturn_of_other hother
        · by_cases hentry : ∃ w, x.entryOf line = some (w, .owned n)
          · obtain ⟨w, hentry⟩ := hentry
            rw [Slice.acceptsReturn_of_held hentry hholder, Record.gaveUp_iff.mpr hgave]
            rfl
          · exact Slice.acceptsReturn_of_other fun w hw => hentry ⟨w, hw⟩
      exact (congrArg (Slice.goOn (s.env sid) false) (Slice.returnArrives_of_refused hfenced hrefused)).trans
        (Slice.goOn_of_still _ _ _ (hstill.sends _ _))
  · intro sid n tag line d ms s hpin hpath hfull
    have hback : s.slices[sid].holdsBackReturns = true := decide_eq_true hfull
    exact whileReleased_takeFromLink_none hpin hpath (if_pos (by rw [hback]; rfl))

/-! ## Requests that do not start (R32) -/

section
variable {env : Env} {n : Agent} {tag : Tag} {w : Waiter} {x : Slice}

/-- A waiter that joins the queue finds nothing that it could start in, so nothing follows. -/
theorem Slice.still.queue (hx : x.still env) (hw : x.held w.line = true ∨ (∃ v ∈ x.waitQueue, v.line = w.line) ∨ x.freeRecords.isEmpty = true) :
    ({ x with waitQueue := x.waitQueue ++ [w] } : Slice).still env := by
  rw [Slice.still_parts] at hx ⊢
  obtain ⟨hev, harbiter, hgo, hengine⟩ := hx
  have heligible : x.freeRecords.isEmpty = false → (x.waitQueue ++ [w]).any x.eligible = false := by
    intro hfree
    rw [Slice.arbiterActs, hfree, Bool.not_false, Bool.and_true] at harbiter
    rw [List.any_append, harbiter, Bool.false_or, List.any_cons, List.any_nil, Bool.or_false, Slice.eligible, Bool.not_eq_false']
    rcases hw with hheld | ⟨v, hv, hline⟩ | hempty
    · exact hheld
    · have hnot := List.any_eq_false.mp harbiter v hv
      rw [Slice.eligible, hline] at hnot
      simpa using hnot
    · rw [hempty] at hfree
      cases hfree
  refine ⟨hev, ?_, hgo, Slice.engineActs_mono x _ hengine rfl (fun _ h => h) id rfl (fun h => ?_) fun h => ?_⟩
  · cases hfree : x.freeRecords.isEmpty with
    | true =>
      refine Bool.and_eq_false_iff.mpr (.inr ?_)
      rw [show Slice.freeRecords { x with waitQueue := x.waitQueue ++ [w] } = x.freeRecords from rfl, hfree]
      rfl
    | false => exact Bool.and_eq_false_iff.mpr (.inl (heligible hfree))
  · have hqueue : (x.waitQueue ++ [w]).isEmpty = true := (Bool.and_eq_true_iff.mp h).2
    simp at hqueue
  · obtain ⟨-, hnonempty⟩ := Bool.and_eq_true_iff.mp h
    have hfree : x.freeRecords.isEmpty = false := (Bool.not_eq_true' _).mp hnonempty
    rw [Slice.arbiterActs, hfree, Bool.not_false, Bool.and_true] at harbiter
    rw [harbiter, hfree]
    rfl

/-- The request cannot start: its line is held or named by a waiter, or no record is FREE. -/
theorem Slice.startOrQueue_of_waits (hw : x.held w.line = true ∨ (∃ v ∈ x.waitQueue, v.line = w.line) ∨ x.freeRecords.isEmpty = true) :
    x.startOrQueue env w = if x.waitQueue.length < 48 then some { x with waitQueue := x.waitQueue ++ [w] } else none := by
  have hstart : (if x.held w.line || x.waitQueue.any (fun v => v.line = w.line) then none else x.takeFree env.sid) = none := by
    rcases hw with hheld | ⟨v, hv, hline⟩ | hempty
    · rw [hheld, Bool.true_or, if_pos rfl]
    · rw [List.any_eq_true.mpr ⟨v, hv, decide_eq_true hline⟩, Bool.or_true, if_pos rfl]
    · rw [(Slice.takeFree_none x env.sid).mpr ((Slice.freeRecords_isEmpty x).mp hempty), ite_self]
  simp only [Slice.startOrQueue, hstart]
  rfl

theorem Slice.waits_of {l : LineAddr} (h : (∃ i : RecIdx, x.records[i].holds l) ∨ (∃ v ∈ x.waitQueue, v.line = l)
    ∨ (∀ i : RecIdx, x.records[i].phase ≠ .free)) : x.held l = true ∨ (∃ v ∈ x.waitQueue, v.line = l) ∨ x.freeRecords.isEmpty = true := by
  rw [Slice.held_iff, Slice.freeRecords_isEmpty]
  exact h

theorem Slice.requestArrives_of_draining (hfenced : x.fenced.getLsbD n = false) (hdraining : x.draining.getLsbD n = true) :
    x.requestArrives env n tag w = x.sends n (.response (.refused tag .departing)) :=
  (if_neg (Bool.eq_false_iff.mp hfenced)).trans (if_pos hdraining)

theorem Slice.requestArrives_of_suspended (hfenced : x.fenced.getLsbD n = false) (hdraining : x.draining.getLsbD n = false)
    (hsuspended : env.suspended = true) : x.requestArrives env n tag w = x.sends n (.response (.retry tag .quiesced)) :=
  (if_neg (Bool.eq_false_iff.mp hfenced)).trans ((if_neg (Bool.eq_false_iff.mp hdraining)).trans (if_pos hsuspended))

theorem Slice.requestArrives_of_accepted (hfenced : x.fenced.getLsbD n = false) (hdraining : x.draining.getLsbD n = false)
    (hsuspended : env.suspended = false) :
    x.requestArrives env n tag w = (x.startOrQueue env w).getD (x.sends n (.response (.retry tag .busy))) :=
  (if_neg (Bool.eq_false_iff.mp hfenced)).trans ((if_neg (Bool.eq_false_iff.mp hdraining)).trans (if_neg (Bool.eq_false_iff.mp hsuspended)))

end

theorem exec_requestArrival {sid : SliceId} {n : Agent} {k : Kind} {tag : Tag} {line : LineAddr} {w : Option WriteData} {ms : List SliceMsg} {s : State}
    (hpin : s.resetPin = .released) (hpath : s.links[n].toSlice[sid] = .request k tag line w :: ms) :
    exec (.requestArrival sid n) s = .next ((s.afterSliceMsg sid n ms).updSlice sid fun x =>
      (x.requestArrives (s.env sid) n tag ⟨.agent n tag, k, line, w⟩).goOn (s.env sid) false) :=
  whileReleased_takeFromLink (g := fun env => Slice.requestArrives env n tag ⟨.agent n tag, k, line, w⟩) hpin hpath rfl

theorem State.env_suspended_of_normal {s : State} (sid : SliceId) (h : s.mgmt.quiesce.state = .normal) : (s.env sid).suspended = false := by
  rw [State.env, State.grantingSuspended, h]
  rfl

theorem State.env_suspended_of_ne {s : State} (sid : SliceId) (h : s.mgmt.quiesce.state ≠ .normal) : (s.env sid).suspended = true :=
  bne_iff_ne.mpr h

/-- Settles O23: the rows of the arrival decision, in their order. -/
theorem requestsThatDoNotStartAtArrival : Obligations.RequestsThatDoNotStartAtArrival := by
  unfold Obligations.RequestsThatDoNotStartAtArrival
  intro sid n k tag line w ms s hpin hpath hstill x t answers
  have hexec := exec_requestArrival hpin hpath
  have hanswers (r : Response) (h : x.requestArrives (s.env sid) n tag ⟨.agent n tag, k, line, w⟩ = x.sends n (.response r)) : answers r :=
    hexec.trans (next_updSlice_congr ((congrArg (Slice.goOn (s.env sid) false) h).trans (Slice.goOn_of_still _ _ _ (hstill.sends _ _))))
  refine ⟨fun hfenced => hexec.trans (next_updSlice_same ?_), fun hfenced => ⟨fun hdraining => hanswers _ ?_, fun hdraining =>
    ⟨fun hquiesce => hanswers _ ?_, fun hquiesce hwaits => ⟨fun hroom => hexec.trans (next_updSlice_congr ?_), fun hfull => hanswers _ ?_⟩⟩⟩⟩
  · have hdropped : x.requestArrives (s.env sid) n tag ⟨.agent n tag, k, line, w⟩ = x := if_pos hfenced
    exact (congrArg (Slice.goOn (s.env sid) false) hdropped).trans (Slice.goOn_of_still _ _ _ hstill)
  · exact Slice.requestArrives_of_draining hfenced hdraining
  · exact Slice.requestArrives_of_suspended hfenced hdraining (State.env_suspended_of_ne sid hquiesce)
  · have hqueued : x.requestArrives (s.env sid) n tag ⟨.agent n tag, k, line, w⟩ =
        { x with waitQueue := x.waitQueue ++ [⟨.agent n tag, k, line, w⟩] } := by
      rw [Slice.requestArrives_of_accepted hfenced hdraining (State.env_suspended_of_normal sid hquiesce),
        Slice.startOrQueue_of_waits (Slice.waits_of hwaits), if_pos hroom, Option.getD_some]
    exact (congrArg (Slice.goOn (s.env sid) false) hqueued).trans (Slice.goOn_of_still _ _ _ (hstill.queue (Slice.waits_of hwaits)))
  · rw [Slice.requestArrives_of_accepted hfenced hdraining (State.env_suspended_of_normal sid hquiesce),
      Slice.startOrQueue_of_waits (Slice.waits_of hwaits), if_neg (Nat.not_lt.mpr hfull), Option.getD_none]

end Sys2Proof.Machine

/-!
A changed record in its slice, and the grant (R14, R16, R17, R59 to R61, R175).
-/

namespace Sys2Proof.Machine

/-! ## A changed record in its slice -/

section
variable {env : Env} {i : RecIdx} {x : Slice}

theorem Slice.set_self (r : Record) : ({ x with records := x.records.set i r } : Slice).records[i] = r :=
  (Slice.getElem_set_records _ _ _ _).trans (if_pos rfl)

/-- A record changed and looked at again. -/
theorem Slice.updRec_eq {f : Record → Record} {r : Record} (h : (f x.records[i]).fixDeadline env = r) :
    x.updRec env i f = { x with records := x.records.set i r } := by
  rw [Slice.updRec, h]

/-- Who holds a line follows from the records' phases and lines. -/
theorem Slice.holder_congr {y : Slice} {l : LineAddr} (h : ∀ j : RecIdx, y.records[j].phase = x.records[j].phase
    ∧ y.records[j].line = x.records[j].line ∧ y.records[j].victim = x.records[j].victim) : y.holder l = x.holder l := by
  refine congrArg (List.find? · (List.finRange 32)) (funext fun j => ?_)
  obtain ⟨hphase, hline, hvictim⟩ := h j
  simp only [hphase, hline, hvictim]

theorem Slice.holder_set {r : Record} {l : LineAddr} (hphase : r.phase = x.records[i].phase) (hline : r.line = x.records[i].line)
    (hvictim : r.victim = x.records[i].victim) : ({ x with records := x.records.set i r } : Slice).holder l = x.holder l := by
  refine Slice.holder_congr fun j => ?_
  by_cases hj : j = i
  · subst hj
    rw [Slice.set_self]
    exact ⟨hphase, hline, hvictim⟩
  · rw [Slice.getElem_set_records, if_neg hj]
    exact ⟨rfl, rfl, rfl⟩

theorem Record.awaits_of_settled {r : Record} (hphase : r.phase = .gather) (h : ∀ q ∈ r.waits ++ r.victimWaits, q.live = false) :
    r.awaits = false := by
  have hany (ws : List Wait) (hsub : ∀ q ∈ ws, q ∈ r.waits ++ r.victimWaits) : ws.any Wait.live = false :=
    List.any_eq_false.mpr fun q hq => by rw [h q (hsub q hq)]; decide
  rw [Record.awaits, hany r.waits fun q hq => List.mem_append_left _ hq, hany r.victimWaits fun q hq => List.mem_append_right _ hq, hphase]
  rfl

theorem Record.fixDeadline_of_not_awaits {r : Record} (h : r.awaits = false) : r.fixDeadline env = r.withDeadline .stopped :=
  (Record.fixDeadline_eq r).trans (congrArg (Record.withDeadline · r) (if_neg (by rw [h]; decide)))

theorem Record.evictionDone_of_no_victim {r : Record} (h : r.victim = none) : r.evictionDone = false := by
  rw [Record.evictionDone, h, Option.isSome_none, Bool.and_false, Bool.false_and]

end

/-- The last wait of a record settled: the deadline stops. -/
theorem Slice.moveWaitOf_only {env : Env} {i : RecIdx} {x : Slice} {v : Bool} {n : Agent} {role : Role} {probe : ProbeKind} {st : WaitState} (how : SettledBy)
    (hphase : x.records[i].phase = .gather) (hwaits : x.records[i].waitsOn v = [⟨n, role, probe, st⟩])
    (hother : ∀ q ∈ x.records[i].waitsOn (!v), q.live = false) : x.moveWaitOf env i v n (.settled how) =
      { x with records := x.records.set i ((x.records[i].setWaits v [⟨n, role, probe, .settled how⟩]).withDeadline .stopped) } := by
  have hmove : moveWait n (.settled how) (x.records[i].waitsOn v) = [⟨n, role, probe, .settled how⟩] := by
    rw [hwaits]
    simp [moveWait]
  have hawaits : (x.records[i].setWaits v [⟨n, role, probe, .settled how⟩]).awaits = false := by
    refine Record.awaits_of_settled (by cases v <;> exact hphase) fun q hq => ?_
    rcases List.mem_append.mp hq with hq | hq
    · cases v with
      | false => rw [List.mem_singleton.mp hq]; rfl
      | true => exact hother q hq
    · cases v with
      | true => rw [List.mem_singleton.mp hq]; rfl
      | false => exact hother q hq
  refine Slice.updRec_eq ?_
  rw [hmove]
  exact Record.fixDeadline_of_not_awaits hawaits

/-! ## The grant (R59 to R61) -/

/-- What the plan of a record grants: to whom, with which message, and the entry it makes. -/
def Record.grant (h : Handle) (r : Record) : Option (Agent × Response × Entry) :=
  match r.originator, r.plan, r.buffer with
  | .agent a t, .grantShared b, some d => some (a, .grantShared t h d.data, .shared b)
  | .agent a t, .grantOwned, some d => some (a, .grantOwned t h d.data, .owned a)
  | .agent a t, .grantPromote, _ => some (a, .grantPromote t h, .owned a)
  | _, _, _ => none

/-- The record awaits nothing and may grant, if it has the data that its plan sends (R59). -/
structure Record.Granting (r : Record) : Prop where
  phase : r.phase = .gather
  kind : r.kind ∈ [Kind.fetchShared, Kind.fetchOwned, Kind.promote]
  finished : r.finished = false
  originFenced : r.originFenced = false
  memRead : r.memRead = false
  victim : r.victim = none
  settled : ∀ q ∈ r.waits ++ r.victimWaits, q.live = false

/-- The slice after a grant: the message, the entry at the front of the recency order, and record i in CONFIRM. -/
def Slice.granted (env : Env) (i : RecIdx) (w : WayIdx) (r : Record) (a : Agent) (m : Response) (e : Entry) (x : Slice) : Slice :=
  { (x.sends a (.response m)).withWayFront (setOf r.line) w (.occupied (tagOf r.line) e) with
    records := x.records.set i { r with phase := .confirm, buffer := none, deadline := .running (env.now + env.timeout) } }

/-- Way w is the line's: its entry's, or without an entry its reservation's. -/
def Slice.isWayOf (x : Slice) (l : LineAddr) (w : WayIdx) : Prop :=
  (∃ e, x.entryOf l = some (w, e)) ∨ (x.entryOf l = none ∧ ∃ h, x.reservationOf l = some (w, h))

section
variable {env : Env} {i : RecIdx} {a : Agent} {w : WayIdx} {m : Response} {e : Entry} {x : Slice} {r : Record}

theorem Slice.grantEntry_of_way {l : LineAddr} (h : x.isWayOf l w) (e : Entry) : x.grantEntry l e = x.withWayFront (setOf l) w (.occupied (tagOf l) e) := by
  rcases h with ⟨e', h⟩ | ⟨hnone, k, h⟩
  · exact Slice.grantEntry_of_entry h e
  · exact Slice.grantEntry_of_reservation hnone h e

theorem Slice.sendGrant_of_grant (h : x.records[i].grant (handleOf env.sid i) = some (a, m, e)) :
    x.sendGrant env i = Slice.sendGrant.go env i x.records[i].line e a m x := by
  simp only [Slice.sendGrant]
  simp only [Record.grant] at h
  split at h
  · next ho hp hb =>
    obtain ⟨rfl, rfl, rfl⟩ := by simpa using h
    simp only [ho, hp, hb]
  · next ho hp hb =>
    obtain ⟨rfl, rfl, rfl⟩ := by simpa using h
    simp only [ho, hp, hb]
  · next ho hp =>
    obtain ⟨rfl, rfl, rfl⟩ := by simpa using h
    simp only [ho, hp]
  · cases h

theorem Record.Granting.grantReady (hr : r.Granting) (h : r.grant k = some (a, m, e)) : r.grantReady = true := by
  have hdata : (r.buffer.isSome || r.plan = .grantPromote) = true := by
    simp only [Record.grant] at h
    split at h
    · next ho hp hb => rw [hb]; rfl
    · next ho hp hb => rw [hb]; rfl
    · next ho hp => rw [hp, decide_eq_true rfl, Bool.or_true]
    · cases h
  rw [Record.grantReady, hdata, hr.phase, (Kind.caching_iff _).mpr hr.kind, hr.finished, Record.awaits_of_settled hr.phase hr.settled, hr.memRead,
    hr.victim, hr.originFenced]
  rfl

/-- A record that awaits nothing sends the grant of its plan. -/
theorem Slice.progress_grant (hi : x.records[i] = r) (hr : r.Granting) (hgrant : r.grant (handleOf env.sid i) = some (a, m, e))
    (hway : x.isWayOf r.line w) : x.progress env i = some (x.granted env i w r a m e) := by
  subst hi
  rw [Slice.progress_of_grantReady (hr.grantReady hgrant) hr.finished, Slice.sendGrant_of_grant hgrant]
  have hway' : (x.sends a (.response m)).isWayOf x.records[i].line w := hway
  have hentry : (x.send a (.response m)).grantEntry x.records[i].line e =
      (x.sends a (.response m)).withWayFront (setOf x.records[i].line) w (.occupied (tagOf x.records[i].line) e) :=
    Slice.grantEntry_of_way hway' e
  rw [Slice.sendGrant.go, hentry]
  refine congrArg some (Slice.updRec_eq ?_)
  have hawaits (d : Deadline) : Record.awaits { x.records[i] with phase := .confirm, buffer := none, deadline := d } = true := by
    simp [Record.awaits, -Fin.getElem_fin, hr.finished]
  exact (Record.fixDeadline_eq _).trans (by
    rw [Env.deadlineAfter]
    exact congrArg (Record.withDeadline · { x.records[i] with phase := .confirm, buffer := none, deadline := .stopped }) (if_pos (hawaits .stopped)))

/-- The step that lets a record grant at a still slice, and the grant: then nothing follows. -/
theorem Slice.goOn_grant (hx : x.still env) (hr : r.Granting) (hgrant : r.grant (handleOf env.sid i) = some (a, m, e))
    (hway : x.isWayOf r.line w) (hphase : x.records[i].phase ≠ .free) (hline : x.records[i].line = r.line) (hvictim : x.records[i].victim = none)
    (hvisit : x.records[i].thisVisit = r.thisVisit) :
    Slice.goOn env false { x with records := x.records.set i r } = x.granted env i w r a m e := by
  have hsame : Slice.SameBut i x { x with records := x.records.set i r } := .of_set_same rfl rfl
  have hgo : Slice.progress env i { x with records := x.records.set i r } = some (x.granted env i w r a m e) := by
    refine (Slice.progress_grant (Slice.set_self r) hr hgrant hway).trans (congrArg some ?_)
    simp only [Slice.granted, Vector.set_set]
    rfl
  refine Slice.goOn_of_progress (hsame.findEviction hx (by rw [Slice.set_self]; exact Record.evictionDone_of_no_victim hr.victim))
    (hsame.progressAny hx hgo) ?_
  have hconfirmed : (x.granted env i w r a m e).records[i] =
      { r with phase := .confirm, buffer := none, deadline := .running (env.now + env.timeout) } :=
    (Slice.getElem_set_records _ _ _ _).trans (if_pos rfl)
  have hsame' : Slice.SameBut i x (x.granted env i w r a m e) := .of_set_same rfl rfl
  have hnotRecall : r.kind ≠ .recall := fun h => by
    have hkind := hr.kind
    rw [h] at hkind
    revert hkind
    decide
  refine hsame'.still hx hphase (by rw [hconfirmed]; exact (by decide : Phase.confirm ≠ .free)) (by rw [hconfirmed, hline]) (by rw [hconfirmed, hvictim]; exact hr.victim)
    (by rw [hconfirmed]; exact fun h => absurd h hnotRecall) (by rw [hconfirmed, hvisit])
    (by rw [hconfirmed]; exact Record.evictionDone_of_no_victim hr.victim)
    (by rw [hconfirmed, Record.goesOn, if_neg (by exact (by decide : Phase.confirm ≠ .free)), if_neg (by rw [hr.finished]; decide), if_pos rfl]) (fun p v t k hv => ?_) id rfl rfl rfl
  rw [hconfirmed]
  by_cases hp : p = setOf r.line
  · exact .inr ⟨hp, hnotRecall⟩
  · exact .inl ⟨t, k, Slice.putSet_reserved (fun h => absurd h hp) hv⟩

end

/-! ## Read completions (R28, R57, R175) -/

theorem exec_memoryReadCompletion {c : Completion} {pre post : List Completion} {line : LineAddr} {s : State} (hpin : s.resetPin = .released)
    (hpath : s.mem.completions = pre ++ c :: post) (hline : c.line = line) (hpre : ∀ q ∈ pre, q.line ≠ line) :
    exec (.memoryReadCompletion line) s = .next ((s.updMem fun m => { m with completions := pre ++ post }).updSlice (handleSlice c.handle) fun x =>
      (x.updRec (s.env (handleSlice c.handle)) (handleIdx c.handle) fun r =>
        { r with
          memRead := false
          buffer := if r.originFenced then r.buffer else some ⟨c.data, .memory⟩ }).goOn (s.env (handleSlice c.handle)) false) := by
  have htake : takeFirst (fun c => decide (c.line = line)) s.mem.completions = some (c, pre ++ post) := by
    rw [hpath]
    exact takeFirst_append_cons post (fun q hq => decide_eq_false (hpre q hq)) (decide_eq_true hline)
  rw [show exec (.memoryReadCompletion line) s = execMemoryReadCompletion line s from rfl, execMemoryReadCompletion,
    whileReleased_of_released _ _ hpin]
  simp only [htake]
  rfl

/-- Settles O34: the completion fills the buffer, and a record that then awaits nothing grants by its plan. -/
theorem aReadCompletionFillsTheBuffer : Obligations.AReadCompletionFillsTheBuffer := by
  unfold Obligations.AReadCompletionFillsTheBuffer
  refine ⟨fun line c pre post s hpin hpath hline hpre => exec_memoryReadCompletion hpin hpath hline hpre, ?_, ?_, ?_⟩
  · intro c rest a tag w s hpin hpath sid i x r hstill hphase hkind hfin hfenced hread hvictim horigin hsettled hway grants
    have hexec := exec_memoryReadCompletion (line := c.line) (pre := []) (post := rest) hpin hpath rfl (by simp)
    have hhandle : handleOf (s.env sid).sid i = c.handle := handleOf_handleSlice_handleIdx c.handle
    let filled : Record := { r with memRead := false, buffer := some ⟨c.data, .memory⟩, deadline := .stopped }
    have hgranting : filled.Granting := ⟨hphase, hkind, hfin, hfenced, rfl, hvictim, hsettled⟩
    have hfilled : x.updRec (s.env sid) i (fun r => { r with memRead := false, buffer := if r.originFenced then r.buffer else some ⟨c.data, .memory⟩ }) =
        { x with records := x.records.set i filled } := by
      have hbuffer : (if r.originFenced then r.buffer else some ⟨c.data, .memory⟩) = some ⟨c.data, .memory⟩ := if_neg (by rw [hfenced]; decide)
      refine Slice.updRec_eq (Eq.trans
        (congrArg (fun b => Record.fixDeadline (s.env sid) { r with memRead := false, buffer := b }) hbuffer) ?_)
      exact Record.fixDeadline_of_not_awaits (r := { r with memRead := false, buffer := some ⟨c.data, .memory⟩ })
        (Record.awaits_of_settled hphase hsettled)
    have hgrants {m : Response} {e : Entry} (hgrant : filled.grant (handleOf (s.env sid).sid i) = some (a, m, e)) : grants m e := by
      refine hexec.trans (next_updSlice_congr ((congrArg (Slice.goOn (s.env sid) false) hfilled).trans ?_))
      exact Slice.goOn_grant hstill hgranting hgrant hway (by rw [show x.records[i].phase = .gather from hphase]; decide) rfl hvictim rfl
    refine ⟨fun b hplan => hgrants ?_, fun hplan => hgrants ?_⟩
    · simp only [Record.grant, filled, horigin, hplan, hhandle]
    · simp only [Record.grant, filled, horigin, hplan, hhandle]
  · intro env i a tag w x r hphase hkind hfin hfenced hread hvictim horigin hsettled hway grants
    have hgranting : r.Granting := ⟨hphase, hkind, hfin, hfenced, hread, hvictim, hsettled⟩
    refine ⟨fun b d hplan hbuffer => ?_, fun d hplan hbuffer => ?_, fun hplan => ?_⟩
    · exact Slice.progress_grant rfl hgranting (by simp only [Record.grant, horigin, hplan, hbuffer]) hway
    · exact Slice.progress_grant rfl hgranting (by simp only [Record.grant, horigin, hplan, hbuffer]) hway
    · exact Slice.progress_grant rfl hgranting (by simp only [Record.grant, horigin, hplan]) hway
  · intro sid n a i line tag w e ms s hpin hpath x r hstill hfenced hphase hkind hplan hfin horiginFenced hread hvictim hvictimWaits horigin hline hwaits
      hentry
    let settled : Record := { r with waits := [⟨n, .sharer, .revoke, .settled .clean⟩], deadline := .stopped }
    have hnotLive : ∀ q ∈ settled.waits ++ settled.victimWaits, q.live = false := by
      intro q hq
      rw [show settled.waits ++ settled.victimWaits = [⟨n, .sharer, .revoke, .settled .clean⟩] from by
        rw [show settled.victimWaits = [] from hvictimWaits]; rfl] at hq
      rw [List.mem_singleton.mp hq]
      rfl
    have hgranting : settled.Granting := ⟨hphase, by rw [show settled.kind = .promote from hkind]; decide, hfin, horiginFenced, hread, hvictim, hnotLive⟩
    have hmoved : x.moveWaitOf (s.env sid) i false n (.settled .clean) = { x with records := x.records.set i settled } := by
      refine Slice.moveWaitOf_only .clean hphase hwaits fun q hq => ?_
      rw [show x.records[i].waitsOn (!false) = [] from hvictimWaits] at hq
      cases hq
    have harrives : x.replyArrives (s.env sid) n (handleOf sid i) line .clean = { x with records := x.records.set i settled } := by
      refine (Slice.replyArrives_of (v := false) (q := ⟨n, .sharer, .revoke, .awaitingReply⟩) hfenced (Slice.replyWait_of hphase hline ?_) rfl).trans hmoved
      rw [show x.records[i].waitsOn false = x.records[i].waits from rfl, show x.records[i].waits = _ from hwaits]
      simp
    refine (whileReleased_takeFromLink (g := fun env => Slice.replyArrives env n (handleOf sid i) line .clean) hpin hpath rfl).trans
      (next_updSlice_congr ((congrArg (Slice.goOn (s.env sid) false) harrives).trans ?_))
    subst hline
    exact Slice.goOn_grant hstill hgranting (by simp only [Record.grant, settled, horigin, hplan]; rfl) (.inl ⟨e, hentry⟩)
      (by rw [show x.records[i].phase = .gather from hphase]; decide) rfl hvictim rfl

end Sys2Proof.Machine

/-!
A transaction's start at a still slice (R26, R44): the record in its slice, what a start does beside it, and the probes to the agents of a set
(R68, R69).
-/

namespace Sys2Proof.Machine

/-! ## A record in its slice, and what changes it -/

/-- The slice with record i replaced. -/
def Slice.withRecord (x : Slice) (i : RecIdx) (r : Record) : Slice := { x with records := x.records.set i r }

section
variable {env : Env} {i : RecIdx} {r : Record} {x y z : Slice} {sid : SliceId} {l : LineAddr}

@[simp] theorem Slice.withRecord_self (x : Slice) (i : RecIdx) (r : Record) : (x.withRecord i r).records[i] = r := Slice.set_self r

theorem Slice.withRecord_withRecord (r r' : Record) : (x.withRecord i r).withRecord i r' = x.withRecord i r' := by
  simp only [Slice.withRecord, Vector.set_set]

theorem Slice.updRec_withRecord (f : Record → Record) : (x.withRecord i r).updRec env i f = x.withRecord i ((f r).fixDeadline env) := by
  refine Eq.trans ?_ (Slice.withRecord_withRecord r _)
  refine Slice.updRec_eq ?_
  rw [Slice.withRecord_self]

theorem Slice.orderRead_withRecord : (x.withRecord i r).orderRead env i =
    (x.orders (.read r.line (handleOf env.sid i)) (.record i)).withRecord i ({ r with memRead := true }.fixDeadline env) := by
  have horder : (x.withRecord i r).order (.read (x.withRecord i r).records[i].line (handleOf env.sid i)) (.record i) =
      (x.orders (.read r.line (handleOf env.sid i)) (.record i)).withRecord i r := by
    rw [Slice.withRecord_self]
    rfl
  rw [Slice.orderRead, horder, Slice.updRec_withRecord]

theorem Slice.finish_withRecord : (x.withRecord i r).finish env i = x.withRecord i ({ r with finished := true }.fixDeadline env) :=
  Slice.updRec_withRecord _

theorem Slice.respond_withRecord {n : Agent} {tag : Tag} (h : r.originator = .agent n tag) (resp : Tag → Response) :
    (x.withRecord i r).respond i resp = (x.sends n (.response (resp tag))).withRecord i r :=
  Slice.respond_of_agent (by rw [Slice.withRecord_self, h]) resp

theorem Slice.answerRetry_withRecord {n : Agent} {tag : Tag} (h : r.originator = .agent n tag) (c : RetryCause) : (x.withRecord i r).answerRetry env i c =
    (x.sends n (.response (.retry tag c))).withRecord i ({ r with finished := true }.fixDeadline env) := by
  rw [Slice.answerRetry, Slice.respond_withRecord h, Slice.finish_withRecord]

/-- A record that awaits no agent has no deadline, whatever changes that begins no waiting. -/
theorem Record.fixDeadline_of_idle (hawaits : r.awaits = false) (hdeadline : r.deadline = .stopped) : r.fixDeadline env = r := by
  rw [Record.fixDeadline_of_not_awaits hawaits, ← hdeadline]
  rfl

/-! ## Beside the record -/

/-- `z` is `x` but for the paths, operations of record i behind the submission list, and ways that were not RESERVED. -/
structure Slice.Beside (i : RecIdx) (x z : Slice) : Prop where
  records : z.records = x.records
  submission : ∃ ops, z.submission = x.submission ++ ops ∧ ∀ o ∈ ops, o.owner = .record i
  engine : z.engine = x.engine
  pendingQuiesce : z.pendingQuiesce = x.pendingQuiesce
  waitQueue : z.waitQueue = x.waitQueue
  reservations : x.KeepsReservations z

theorem Slice.Beside.picks (i : RecIdx) (x : Slice) (picks : Nat) : Slice.Beside i x { x with picks := picks } :=
  ⟨rfl, ⟨[], by simp⟩, rfl, rfl, rfl, .of_dir rfl⟩

theorem Slice.Beside.orders (h : Slice.Beside i x z) (op : MemOp) : Slice.Beside i x (z.orders op (.record i)) := by
  obtain ⟨ops, hsub, howner⟩ := h.submission
  refine ⟨h.records, ⟨ops ++ [⟨op, .record i⟩], by rw [Slice.orders, hsub, List.append_assoc], fun o ho => ?_⟩, h.engine, h.pendingQuiesce, h.waitQueue,
    h.reservations⟩
  rcases List.mem_append.mp ho with ho | ho
  · exact howner o ho
  · rw [List.mem_singleton.mp ho]

theorem Slice.Beside.orderPoisonIf (h : Slice.Beside i x z) (p : Bool) (l : LineAddr) : Slice.Beside i x (z.orderPoisonIf p l i) := by
  cases p with
  | false => exact h
  | true => exact h.orders _

theorem Slice.Beside.toLink (h : Slice.Beside i x z) (v : Vector (List LinkMsg) 8) : Slice.Beside i x { z with toLink := v } :=
  ⟨h.records, h.submission, h.engine, h.pendingQuiesce, h.waitQueue, h.reservations⟩

theorem Slice.Beside.sends (h : Slice.Beside i x z) (n : Agent) (m : LinkMsg) : Slice.Beside i x (z.sends n m) := h.toLink _

theorem Slice.Beside.putSet (h : Slice.Beside i x z) {p : Nat} {w : WayIdx} {a : Way} {recency : List WayIdx}
    (hw : ∀ t k, (z.getSet p).ways[w] ≠ .reserved t k) : Slice.Beside i x (z.putSet p ⟨(z.getSet p).ways.set w a, recency⟩) :=
  ⟨h.records, h.submission, h.engine, h.pendingQuiesce, h.waitQueue,
    fun q v t k hv => Slice.KeepsReservations.of_ways hw recency q v t k (h.reservations q v t k hv)⟩

theorem Slice.Beside.sameBut (h : Slice.Beside i x z) : Slice.SameBut i x (z.withRecord i r) := by
  obtain ⟨hrec, hsub, -, -, -, -⟩ := h
  exact .of_set (by rw [Slice.withRecord, hrec]) hsub

/-- A start that leaves its record with nothing to do is the end of the event. -/
theorem Slice.Beside.still (h : Slice.Beside i x z) (hx : x.still env) (hfree : x.records[i].phase = .free) (hr : r.phase ≠ .free)
    (hev : r.evictionDone = false) (hgo : r.goesOn (z.noOps i) = false) : (z.withRecord i r).still env :=
  Slice.still_of_start env x _ i r hx hfree (by rw [Slice.withRecord, h.records]) hr hev hgo h.submission h.engine h.pendingQuiesce h.waitQueue
    fun p w t k hv => ⟨t, k, h.reservations p w t k hv⟩

theorem Slice.Beside.goOn (h : Slice.Beside i x z) (hx : x.still env) (hfree : x.records[i].phase = .free) (hr : r.phase ≠ .free)
    (hev : r.evictionDone = false) (hgo : r.goesOn (z.noOps i) = false) : (z.withRecord i r).goOn env false = z.withRecord i r :=
  Slice.goOn_of_still _ _ _ (h.still hx hfree hr hev hgo)

/-- A start whose record goes on once in the same event. -/
theorem Slice.Beside.goOn_progress {r₀ : Record} (h : Slice.Beside i x y) (hx : x.still env) (hev : r₀.evictionDone = false)
    (hgo : (y.withRecord i r₀).progress env i = some z) (hz : z.still env) : (y.withRecord i r₀).goOn env false = z := by
  have hsame : Slice.SameBut i x (y.withRecord i r₀) := h.sameBut
  exact Slice.goOn_of_progress (hsame.findEviction hx (by rw [Slice.withRecord_self]; exact hev)) (hsame.progressAny hx hgo) hz

/-- A record that has an operation in the submission list waits for it. -/
theorem Slice.noOps_orders (x : Slice) (op : MemOp) (i : RecIdx) : (x.orders op (.record i)).noOps i = false := by
  simp [Slice.noOps, Slice.orders]

theorem Slice.noOps_orderPoisonIf (p : Bool) (h : x.noOps i = false) : (x.orderPoisonIf p l i).noOps i = false := by
  cases p with
  | false => exact h
  | true => exact Slice.noOps_orders _ _ _

end

/-! ## Probes to the agents of a set (R68, R69) -/

section
variable {env : Env} {i : RecIdx} {v : Bool} {r : Record} {x : Slice}

theorem Record.fixDeadline_fixDeadline (r : Record) : (r.fixDeadline env).fixDeadline env = r.fixDeadline env :=
  Record.fixDeadline_after (g := id) (fun _ => rfl) id

/-- The record with more waits behind those of one of its lines. -/
def Record.addWaits (v : Bool) (ws : List Wait) (r : Record) : Record := r.setWaits v (r.waitsOn v ++ ws)

theorem Record.addWaits_withDeadline (ws : List Wait) (d : Deadline) : (r.withDeadline d).addWaits v ws = (r.addWaits v ws).withDeadline d := by
  cases v <;> rfl

theorem Record.addWaits_addWaits (ws ws' : List Wait) : (r.addWaits v ws).addWaits v ws' = r.addWaits v (ws ++ ws') := by
  cases v <;> simp [Record.addWaits, Record.setWaits, Record.waitsOn]

theorem Record.addWaits_nil : r.addWaits v [] = r := by
  cases v <;> simp [Record.addWaits, Record.setWaits, Record.waitsOn]

theorem Record.awaits_addWaits {ws : List Wait} (h : ∃ q ∈ ws, q.live = true) : (r.addWaits v ws).awaits = true := by
  obtain ⟨q, hq, hlive⟩ := h
  have hany (us : List Wait) : (us ++ ws).any Wait.live = true := List.any_eq_true.mpr ⟨q, List.mem_append_right _ hq, hlive⟩
  cases v with
  | false => simp [Record.awaits, Record.addWaits, Record.setWaits, Record.waitsOn, List.any_eq_true.mpr ⟨q, hq, hlive⟩]
  | true => simp [Record.awaits, Record.addWaits, Record.setWaits, Record.waitsOn, List.any_eq_true.mpr ⟨q, hq, hlive⟩]

theorem Record.lineOn_addWaits (u : Bool) (ws : List Wait) : ((r.addWaits v ws).fixDeadline env).lineOn u = r.lineOn u := by
  cases v <;> rfl

/-- One probe to an agent that is not fenced. -/
theorem Slice.probeAgent_withRecord (k : ProbeKind) (role : Role) {n : Agent} (h : x.fenced.getLsbD n = false) :
    (x.withRecord i r).probeAgent env i v k role n =
      (x.sends n (.probe ⟨k, handleOf env.sid i, r.lineOn v⟩)).withRecord i ((r.addWaits v [⟨n, role, k, .awaitingReply⟩]).fixDeadline env) := by
  rw [Slice.probeAgent_of_unfenced (x := x.withRecord i r) k role h, Slice.updRec_withRecord, Slice.withRecord_self]
  rfl

/-- One probe to a fenced agent: its wait is taken, and settled at once. -/
theorem Slice.probeAgent_withRecord_fenced (k : ProbeKind) (role : Role) {n : Agent} (h : x.fenced.getLsbD n = true) :
    (x.withRecord i r).probeAgent env i v k role n =
      (x.withRecord i ((r.addWaits v [⟨n, role, k, .awaitingReply⟩]).fixDeadline env)).settleFenced env i v n := by
  rw [Slice.probeAgent_of_fenced (x := x.withRecord i r) k role h, Slice.updRec_withRecord]
  rfl

/-- Probes to a list of agents, none of them fenced, one after the other. -/
theorem Slice.foldl_probeAgent (k : ProbeKind) (role : Role) (ns : List Agent) (hns : ∀ n ∈ ns, x.fenced.getLsbD n = false)
    (hr : r.fixDeadline env = r) : ns.foldl (Slice.probeAgent env i v k role) (x.withRecord i r) =
      Slice.withRecord
        { x with toLink := ns.foldl (fun (t : Vector (List LinkMsg) 8) (n : Agent) => t.set n (t[n] ++ [.probe ⟨k, handleOf env.sid i, r.lineOn v⟩])) x.toLink } i
        ((r.addWaits v (ns.map fun n => ⟨n, role, k, .awaitingReply⟩)).fixDeadline env) := by
  induction ns generalizing x r with
  | nil => rw [List.foldl_nil, List.foldl_nil, List.map_nil, Record.addWaits_nil, hr]
  | cons n ns ih =>
    have hlive : ∀ ws : List Wait, (r.addWaits v (⟨n, role, k, .awaitingReply⟩ :: ws)).awaits = true → (r.addWaits v [⟨n, role, k, .awaitingReply⟩]).awaits = true :=
      fun _ _ => Record.awaits_addWaits ⟨_, List.mem_singleton_self _, rfl⟩
    have hmore (ws : List Wait) : (((r.addWaits v [⟨n, role, k, .awaitingReply⟩]).fixDeadline env).addWaits v ws).fixDeadline env =
        (r.addWaits v (⟨n, role, k, .awaitingReply⟩ :: ws)).fixDeadline env := by
      refine (Record.fixDeadline_after (fun d => Record.addWaits_withDeadline ws d) ?_).trans (congrArg _ (Record.addWaits_addWaits _ _))
      rw [Record.addWaits_addWaits]
      exact hlive ws
    rw [List.foldl_cons, Slice.probeAgent_withRecord k role (hns n List.mem_cons_self),
      ih (x := x.sends n (.probe ⟨k, handleOf env.sid i, r.lineOn v⟩)) (fun m hm => hns m (List.mem_cons_of_mem n hm)) (Record.fixDeadline_fixDeadline _),
      hmore, Record.lineOn_addWaits]
    rfl

/-- The deadline of a record that awaited nobody and now awaits the agents of a set. -/
theorem Record.fixDeadline_addWaits (role : Role) (k : ProbeKind) (a : AgentSet) (hawaits : r.awaits = false) (hdeadline : r.deadline = .stopped) :
    (r.addWaits v (waitsOnAgents a role k)).fixDeadline env = (r.addWaits v (waitsOnAgents a role k)).withDeadline (env.deadlineFor a) := by
  have hwaits : waitsOnAgents a role k = (AgentSet.toList a).map fun n => ⟨n, role, k, .awaitingReply⟩ := rfl
  by_cases ha : a = 0#8
  · have hnil : waitsOnAgents a role k = [] := by
      subst ha
      rfl
    rw [hnil, Record.addWaits_nil, Record.fixDeadline_of_not_awaits hawaits, Env.deadlineFor, if_pos ha]
  · have hmem : ∃ n : Agent, a.getLsbD n = true := by
      by_contra hnone
      refine ha (AgentSet.ext fun n => ?_)
      rw [BitVec.getLsbD_zero]
      exact Bool.eq_false_iff.mpr fun h => hnone ⟨n, h⟩
    obtain ⟨n, hn⟩ := hmem
    have hlive : (r.addWaits v (waitsOnAgents a role k)).awaits = true :=
      Record.awaits_addWaits ⟨⟨n, role, k, .awaitingReply⟩, hwaits ▸ List.mem_map.mpr ⟨n, AgentSet.mem_toList.mpr hn, rfl⟩, rfl⟩
    have hstopped : (r.addWaits v (waitsOnAgents a role k)).deadline = .stopped := by
      cases v <;> exact hdeadline
    rw [Record.fixDeadline_eq, hlive, hstopped, Env.deadlineFor, if_neg ha]
    rfl

/-- A record that revokes the agents of a set, none of them fenced. -/
theorem Slice.revokeAll_withRecord (e : Entry) (a : AgentSet) (ha : ∀ m : Agent, a.getLsbD m = true → x.fenced.getLsbD m = false)
    (hawaits : r.awaits = false) (hdeadline : r.deadline = .stopped) : (x.withRecord i r).revokeAll env i v e a =
      (x.probes a ⟨.revoke, handleOf env.sid i, r.lineOn v⟩).withRecord i
        ((r.addWaits v (waitsOnAgents a e.role .revoke)).withDeadline (env.deadlineFor a)) := by
  let p : LinkMsg := .probe ⟨.revoke, handleOf env.sid i, r.lineOn v⟩
  rw [Slice.revokeAll, Slice.foldl_probeAgent .revoke e.role _ (fun n hn => ha n (AgentSet.mem_toList.mp hn))
    (Record.fixDeadline_of_idle hawaits hdeadline), 
    foldl_set_toList (· ++ [p])]
  exact congrArg (Slice.withRecord _ i) (Record.fixDeadline_addWaits e.role .revoke a hawaits hdeadline)

theorem Slice.Beside.probes {z : Slice} (h : Slice.Beside i x z) (a : AgentSet) (p : Probe) : Slice.Beside i x (z.probes a p) := h.toLink _

end

end Sys2Proof.Machine

/-!
The start-time decisions in a record's slice (R39, R46, R51, R54, R55, R94, R100, R101), the requests that are answered at once, and Scrub
(R205, R206).
-/

namespace Sys2Proof.Machine

/-! ## A record that awaits nobody -/

/-- The record awaits no agent, and has no deadline. -/
def Record.Idle (r : Record) : Prop := r.awaits = false ∧ r.deadline = .stopped

section
variable {env : Env} {i : RecIdx} {r : Record} {v : Bool} {x : Slice} {n : Agent} {tag : Tag} {w : WayIdx} {e : Entry}

theorem Record.Idle.fixDeadline (h : r.Idle) : r.fixDeadline env = r := Record.fixDeadline_of_idle h.1 h.2

theorem Record.Idle.congr {r' : Record} (h : r.Idle) (hphase : r'.phase = r.phase) (hwaits : r'.waits = r.waits)
    (hvictimWaits : r'.victimWaits = r.victimWaits) (hfin : r'.finished = r.finished) (hdeadline : r'.deadline = r.deadline) : r'.Idle := by
  obtain ⟨hawaits, hstopped⟩ := h
  refine ⟨?_, hdeadline.trans hstopped⟩
  rw [Record.awaits] at hawaits ⊢
  rw [hphase, hwaits, hvictimWaits, hfin]
  exact hawaits

/-- The record in which a request of agent n starts, before its decision. -/
theorem Waiter.record_idle (w : Waiter) : (w.record env).Idle := ⟨rfl, rfl⟩

/-- The revokes to the agents of a set, and the read beside them. -/
theorem Slice.revokeAll_orderRead (e : Entry) (a : AgentSet) (ha : ∀ m : Agent, a.getLsbD m = true → x.fenced.getLsbD m = false) (hr : r.Idle) :
    ((x.withRecord i r).revokeAll env i v e a).orderRead env i =
      ((x.probes a ⟨.revoke, handleOf env.sid i, r.lineOn v⟩).orders (.read r.line (handleOf env.sid i)) (.record i)).withRecord i
        (({ r with memRead := true }.addWaits v (waitsOnAgents a e.role .revoke)).withDeadline (env.deadlineFor a)) := by
  obtain ⟨hawaits, hdeadline⟩ := hr
  have hline : ((r.addWaits v (waitsOnAgents a e.role .revoke)).withDeadline (env.deadlineFor a)).line = r.line := by cases v <;> rfl
  have hadd : Record.addWaits v (waitsOnAgents a e.role .revoke) { r with memRead := true } =
      { r.addWaits v (waitsOnAgents a e.role .revoke) with memRead := true } := by cases v <;> rfl
  have hrec : ({ (r.addWaits v (waitsOnAgents a e.role .revoke)).withDeadline (env.deadlineFor a) with memRead := true } : Record).fixDeadline env =
      ({ r with memRead := true }.addWaits v (waitsOnAgents a e.role .revoke)).withDeadline (env.deadlineFor a) := by
    rw [← Record.fixDeadline_addWaits e.role .revoke a hawaits hdeadline,
      ← Record.fixDeadline_addWaits (r := { r with memRead := true }) e.role .revoke a hawaits hdeadline, hadd]
    exact Record.fixDeadline_after (g := fun r => { r with memRead := true }) (fun _ => rfl) id
  rw [Slice.revokeAll_withRecord e a ha hawaits hdeadline, Slice.orderRead_withRecord]
  let z : Slice := x.probes a ⟨.revoke, handleOf env.sid i, r.lineOn v⟩
  exact congrArg₂ (fun l b => (z.orders (.read l (handleOf env.sid i)) (.record i)).withRecord i b) hline hrec

/-! ## The start-time decisions (R46 to R55, R94, R100, R101, R110) -/

/-- A way is found: it becomes RESERVED, and the read is ordered (R110). -/
theorem Slice.needWay_of_empty (hr : r.Idle) (hw : (x.getSet (setOf r.line)).findEmpty = some w) (plan : Plan) :
    (x.withRecord i r).needWay env i plan =
      ((x.withWay (setOf r.line) w (.reserved (tagOf r.line) (handleOf env.sid i))).orders (.read r.line (handleOf env.sid i)) (.record i)).withRecord i
        { r with plan := plan, memRead := true } := by
  have hw' : ((x.withRecord i r).getSet (setOf r.line)).findEmpty = some w := hw
  simp only [Slice.needWay, Slice.withRecord_self, hw']
  have hplanned : Record.Idle { r with plan := plan } := hr.congr rfl rfl rfl rfl rfl
  have hread : Record.Idle { r with plan := plan, memRead := true } := hr.congr rfl rfl rfl rfl rfl
  have hplace : ((x.withRecord i r).putSet (setOf r.line)
      (((x.withRecord i r).getSet (setOf r.line)).setWay w (.reserved (tagOf r.line) (handleOf env.sid i)))) =
      (x.withWay (setOf r.line) w (.reserved (tagOf r.line) (handleOf env.sid i))).withRecord i r := rfl
  rw [hplace, Slice.updRec_withRecord, hplanned.fixDeadline, Slice.orderRead_withRecord, hread.fixDeadline]

/-- A record that has planned, and orders its read. -/
theorem Slice.plan_orderRead (hr : r.Idle) (plan : Plan) :
    ((x.withRecord i r).updRec env i fun r => { r with plan := plan }).orderRead env i =
      (x.orders (.read r.line (handleOf env.sid i)) (.record i)).withRecord i { r with plan := plan, memRead := true } := by
  have hplanned : Record.Idle { r with plan := plan } := hr.congr rfl rfl rfl rfl rfl
  have hread : Record.Idle { r with plan := plan, memRead := true } := hr.congr rfl rfl rfl rfl rfl
  rw [Slice.updRec_withRecord, hplanned.fixDeadline, Slice.orderRead_withRecord, hread.fixDeadline]

theorem Slice.plan_withRecord (hr : r.Idle) (plan : Plan) :
    (x.withRecord i r).updRec env i (fun r => { r with plan := plan }) = x.withRecord i { r with plan := plan } := by
  have hplanned : Record.Idle { r with plan := plan } := hr.congr rfl rfl rfl rfl rfl
  rw [Slice.updRec_withRecord, hplanned.fixDeadline]

/-- The entry of the record's line, as the decision looks it up. -/
theorem Slice.entryOf_withRecord : (x.withRecord i r).entryOf (x.withRecord i r).records[i].line = x.entryOf r.line := by
  rw [Slice.withRecord_self]
  rfl

theorem Slice.startFetchShared_of_none (h : x.entryOf r.line = none) :
    (x.withRecord i r).startFetchShared env i n = (x.withRecord i r).needWay env i (solePlan env.exclusive n) := by
  simp only [Slice.startFetchShared, Slice.entryOf_withRecord, h]

theorem Slice.startFetchShared_of_shared {b : AgentSet} (h : x.entryOf r.line = some (w, .shared b)) (hr : r.Idle) :
    (x.withRecord i r).startFetchShared env i n = (x.orders (.read r.line (handleOf env.sid i)) (.record i)).withRecord i
      { r with
        plan := if b = AgentSet.single n then solePlan env.exclusive n else .grantShared (AgentSet.insert b n)
        memRead := true } := by
  simp only [Slice.startFetchShared, Slice.entryOf_withRecord, h]
  exact Slice.plan_orderRead hr _

theorem Slice.startFetchShared_of_owned {b : Agent} (h : x.entryOf r.line = some (w, .owned b)) (hb : b ≠ n) (hr : r.Idle) :
    (x.withRecord i r).startFetchShared env i n =
      (x.withRecord i { r with plan := .grantShared (AgentSet.insert (AgentSet.single n) b) }).probeAgent env i false .demote .owner b := by
  simp only [Slice.startFetchShared, Slice.entryOf_withRecord, h]
  rw [if_neg hb, Slice.plan_withRecord hr]

theorem Slice.startFetchOwned_of_none (h : x.entryOf r.line = none) :
    (x.withRecord i r).startFetchOwned env i n = (x.withRecord i r).needWay env i .grantOwned := by
  simp only [Slice.startFetchOwned, Slice.entryOf_withRecord, h]

theorem Slice.startFetchOwned_of_shared {b : AgentSet} (h : x.entryOf r.line = some (w, .shared b)) (hr : r.Idle) :
    (x.withRecord i r).startFetchOwned env i n =
      ((x.withRecord i { r with plan := .grantOwned }).revokeAll env i false (.shared b) (AgentSet.erase b n)).orderRead env i := by
  simp only [Slice.startFetchOwned, Slice.entryOf_withRecord, h]
  rw [Slice.plan_withRecord hr]

theorem Slice.startFetchOwned_of_owned {b : Agent} (h : x.entryOf r.line = some (w, .owned b)) (hb : b ≠ n) (hr : r.Idle) :
    (x.withRecord i r).startFetchOwned env i n = (x.withRecord i { r with plan := .grantOwned }).probeAgent env i false .revoke .owner b := by
  simp only [Slice.startFetchOwned, Slice.entryOf_withRecord, h]
  rw [if_neg hb, Slice.plan_withRecord hr]

/-- A Promote of an agent that is no sharer is served as a FetchOwned (R55). -/
theorem Slice.startPromote_of_not_sharer (h : ∀ w b, x.entryOf r.line = some (w, .shared b) → b.getLsbD n = false) :
    (x.withRecord i r).startPromote env i n = (x.withRecord i r).startFetchOwned env i n := by
  rw [Slice.startPromote, Slice.entryOf_withRecord]
  cases he : x.entryOf r.line with
  | none => rfl
  | some found =>
    obtain ⟨w, e⟩ := found
    cases e with
    | owned b => rfl
    | shared b => exact if_neg (Bool.eq_false_iff.mp (h w b he))

theorem Slice.startPromote_of_sharer {b : AgentSet} (h : x.entryOf r.line = some (w, .shared b)) (hn : b.getLsbD n = true) (hr : r.Idle) :
    (x.withRecord i r).startPromote env i n =
      (x.withRecord i { r with plan := .grantPromote }).revokeAll env i false (.shared b) (AgentSet.erase b n) := by
  simp only [Slice.startPromote, Slice.entryOf_withRecord, h]
  rw [if_pos (show AgentSet.mem b n = true from hn), Slice.plan_withRecord hr]

theorem Slice.startSnapshot_of_not_owned (h : ∀ w b, x.entryOf r.line ≠ some (w, .owned b)) (hr : r.Idle) :
    (x.withRecord i r).startSnapshot env i n =
      (x.orders (.read r.line (handleOf env.sid i)) (.record i)).withRecord i { r with plan := .snapshotData, memRead := true } := by
  refine Eq.trans ?_ (Slice.plan_orderRead hr _)
  rw [Slice.startSnapshot, Slice.entryOf_withRecord]
  cases he : x.entryOf r.line with
  | none => rfl
  | some found =>
    obtain ⟨w, e⟩ := found
    cases e with
    | shared b => rfl
    | owned b => exact absurd he (h w b)

theorem Slice.startSnapshot_of_owned {b : Agent} (h : x.entryOf r.line = some (w, .owned b)) (hb : b ≠ n) (hr : r.Idle) :
    (x.withRecord i r).startSnapshot env i n = (x.withRecord i { r with plan := .snapshotData }).probeAgent env i false .peek .owner b := by
  simp only [Slice.startSnapshot, Slice.entryOf_withRecord, h]
  rw [if_neg hb, Slice.plan_withRecord hr]

/-- The recorded owner's own request (R39). -/
theorem Slice.start_of_own (h : x.entryOf r.line = some (w, .owned n)) :
    (x.withRecord i r).startFetchShared env i n = (x.withRecord i r).answerRetry env i .selfOwned
    ∧ (x.withRecord i r).startFetchOwned env i n = (x.withRecord i r).answerRetry env i .selfOwned
    ∧ (x.withRecord i r).startPromote env i n = (x.withRecord i r).answerRetry env i .selfOwned
    ∧ (x.withRecord i r).startSnapshot env i n = (x.withRecord i r).answerRetry env i .selfOwned := by
  have howned : (x.withRecord i r).startFetchOwned env i n = (x.withRecord i r).answerRetry env i .selfOwned := by
    simp only [Slice.startFetchOwned, Slice.entryOf_withRecord, h, if_true]
  refine ⟨?_, howned, (Slice.startPromote_of_not_sharer fun w b hb => ?_).trans howned, ?_⟩
  · simp only [Slice.startFetchShared, Slice.entryOf_withRecord, h, if_true]
  · rw [h] at hb
    cases hb
  · simp only [Slice.startSnapshot, Slice.entryOf_withRecord, h, if_true]

theorem Slice.startMaskedWrite_of_empty {d : WriteData} (hwrite : r.write = some d) (hmask : d.mask = 0#64) :
    (x.withRecord i r).startMaskedWrite env i n = ((x.withRecord i r).respond i fun t => .writeDone t).finish env i := by
  have hempty : (x.withRecord i r).records[i].emptyMask = true := by
    rw [Slice.withRecord_self, Record.emptyMask, hwrite]
    exact decide_eq_true hmask
  rw [Slice.startMaskedWrite, if_pos hempty]

/-- The record's write selects a byte (R101). -/
theorem Slice.withRecord_emptyMask {d : WriteData} (hwrite : r.write = some d) (hmask : d.mask ≠ 0#64) :
    ¬(x.withRecord i r).records[i].emptyMask = true := by
  rw [Slice.withRecord_self, Record.emptyMask, hwrite]
  exact fun h => hmask (of_decide_eq_true h)

theorem Slice.startMaskedWrite_of_none {d : WriteData} (hwrite : r.write = some d) (hmask : d.mask ≠ 0#64) (hr : r.Idle) (h : x.entryOf r.line = none) :
    (x.withRecord i r).startMaskedWrite env i n = x.withRecord i { r with plan := .writeDone } := by
  rw [Slice.startMaskedWrite, if_neg (Slice.withRecord_emptyMask hwrite hmask), Slice.entryOf_withRecord, h]
  exact Slice.plan_withRecord hr _

theorem Slice.startMaskedWrite_of_shared {d : WriteData} {b : AgentSet} (hwrite : r.write = some d) (hmask : d.mask ≠ 0#64) (hr : r.Idle)
    (h : x.entryOf r.line = some (w, .shared b)) : (x.withRecord i r).startMaskedWrite env i n =
      (x.withRecord i { r with plan := .writeDone }).revokeAll env i false (.shared b) b := by
  rw [Slice.startMaskedWrite, if_neg (Slice.withRecord_emptyMask hwrite hmask), Slice.entryOf_withRecord, h]
  exact congrArg (fun y => Slice.revokeAll env i false (.shared b) b y) (Slice.plan_withRecord hr _)

theorem Slice.startMaskedWrite_of_own {d : WriteData} (hwrite : r.write = some d) (hmask : d.mask ≠ 0#64) (h : x.entryOf r.line = some (w, .owned n)) :
    (x.withRecord i r).startMaskedWrite env i n = (x.withRecord i r).answerRetry env i .selfOwned := by
  rw [Slice.startMaskedWrite, if_neg (Slice.withRecord_emptyMask hwrite hmask), Slice.entryOf_withRecord, h]
  exact if_pos rfl

theorem Slice.startMaskedWrite_of_owned {d : WriteData} {b : Agent} (hwrite : r.write = some d) (hmask : d.mask ≠ 0#64) (hr : r.Idle)
    (h : x.entryOf r.line = some (w, .owned b)) (hb : b ≠ n) : (x.withRecord i r).startMaskedWrite env i n =
      (x.withRecord i { r with plan := .writeDone }).probeAgent env i false .revoke .owner b := by
  rw [Slice.startMaskedWrite, if_neg (Slice.withRecord_emptyMask hwrite hmask), Slice.entryOf_withRecord, h]
  exact (if_neg hb).trans (congrArg (fun y => Slice.probeAgent env i false .revoke .owner y b) (Slice.plan_withRecord hr _))

theorem Slice.startScrub_of_none (h : x.entryOf r.line = none) : (x.withRecord i r).startScrub env i = x.withRecord i r := by
  rw [Slice.startScrub, Slice.entryOf_withRecord, h]

theorem Slice.startScrub_of_entry (h : x.entryOf r.line = some (w, e)) :
    (x.withRecord i r).startScrub env i = (x.withRecord i r).revokeAll env i false e e.agents := by
  rw [Slice.startScrub, Slice.entryOf_withRecord, h]

/-- A start is the record in its slice, and its decision. -/
theorem Slice.startRecord_agent (env : Env) (i : RecIdx) (n : Agent) (tag : Tag) (k : Kind) (l : LineAddr) (d : Option WriteData) (x : Slice) :
    let y := x.withRecord i (Waiter.record env ⟨.agent n tag, k, l, d⟩)
    Slice.startRecord env i ⟨.agent n tag, k, l, d⟩ x = match k with
      | .fetchShared => y.startFetchShared env i n
      | .fetchOwned => y.startFetchOwned env i n
      | .promote => y.startPromote env i n
      | .snapshot => y.startSnapshot env i n
      | .maskedWrite => y.startMaskedWrite env i n
      | .recall => y.finish env i
      | .scrub => y.finish env i := by
  cases k <;> rfl

/-! ## A request that starts at its arrival (R32) -/

/-- What an arrival that starts finds: the line is free of records and waiters, and a record is FREE. -/
theorem Slice.startOrQueue_starts {w : Waiter} (hline : ∀ i : RecIdx, ¬x.records[i].holds w.line) (hqueue : ∀ v ∈ x.waitQueue, v.line ≠ w.line)
    (hfree : ∃ i : RecIdx, x.records[i].phase = .free) :
    ∃ (i : RecIdx) (picks : Nat), x.records[i].phase = .free
      ∧ x.startOrQueue env w = some (Slice.startRecord env i w { x with picks := picks }) := by
  have hheld := (Slice.held_eq_false x w.line).mpr hline
  have hnamed : x.waitQueue.any (fun v => v.line = w.line) = false :=
    List.any_eq_false.mpr fun v hv => by rw [decide_eq_false (hqueue v hv)]; decide
  cases htake : x.takeFree env.sid with
  | none =>
    obtain ⟨i, hi⟩ := hfree
    exact absurd hi ((Slice.takeFree_none x env.sid).mp htake i)
  | some found =>
    obtain ⟨i, y⟩ := found
    obtain ⟨hi, picks, rfl⟩ := Slice.takeFree_some htake
    refine ⟨i, picks, hi, ?_⟩
    simp only [Slice.startOrQueue, hheld, hnamed, htake]
    rfl

end

section
variable {sid : SliceId} {n : Agent} {k : Kind} {tag : Tag} {line : LineAddr} {wd : Option WriteData} {ms : List SliceMsg} {s : State}

/-- A request starts in a FREE record; what its start and the acts that follow make of the slice is what the event makes of it. -/
theorem exec_requestArrival_starts (hpin : s.resetPin = .released) (hpath : s.links[n].toSlice[sid] = .request k tag line wd :: ms)
    (hnormal : s.mgmt.quiesce.state = .normal) (hfenced : s.slices[sid].fenced.getLsbD n = false) (hdraining : s.slices[sid].draining.getLsbD n = false)
    (hline : ∀ i : RecIdx, ¬s.slices[sid].records[i].holds line) (hqueue : ∀ v ∈ s.slices[sid].waitQueue, v.line ≠ line)
    (hfree : ∃ i : RecIdx, s.slices[sid].records[i].phase = .free) :
    ∃ (i : RecIdx) (picks : Nat), s.slices[sid].records[i].phase = .free ∧ ∀ f : Slice → Slice,
      (Slice.startRecord (s.env sid) i ⟨.agent n tag, k, line, wd⟩ { s.slices[sid] with picks := picks }).goOn (s.env sid) false = f s.slices[sid] →
      exec (.requestArrival sid n) s = .next ((s.afterSliceMsg sid n ms).updSlice sid f) := by
  obtain ⟨i, picks, hi, hstart⟩ := Slice.startOrQueue_starts (env := s.env sid) (w := ⟨.agent n tag, k, line, wd⟩) hline hqueue hfree
  refine ⟨i, picks, hi, fun f hf => (exec_requestArrival hpin hpath).trans (next_updSlice_congr (Eq.trans ?_ hf))⟩
  refine congrArg (Slice.goOn (s.env sid) false) ?_
  refine (Slice.requestArrives_of_accepted hfenced hdraining (State.env_suspended_of_normal sid hnormal)).trans ?_
  exact (congrArg (Option.getD · _) hstart).trans rfl

end

/-! ## Starts that answer at once (R39, R100) -/

section
variable {env : Env} {i : RecIdx} {x y : Slice} {r : Record}

theorem Slice.still.not_eligible (hx : x.still env) (hfree : x.records[i].phase = .free) {u : Waiter} (hu : u ∈ x.waitQueue) : x.held u.line = true := by
  obtain ⟨-, harbiter, -, -⟩ := (Slice.still_parts env x).mp hx
  have hnonempty : x.freeRecords.isEmpty = false := Bool.eq_false_iff.mpr fun h => (Slice.freeRecords_isEmpty x).mp h i hfree
  rw [Slice.arbiterActs, hnonempty, Bool.not_false, Bool.and_true] at harbiter
  have hnot := List.any_eq_false.mp harbiter u hu
  rw [Slice.eligible] at hnot
  simpa using hnot

/-- A record that started and finished in one event leaves its slice as it was, but for what it sent. -/
theorem Slice.goOn_finished (hx : x.still env) (hfree : x.records[i] = Record.free) (hops : x.noOps i = true)
    (hrec : y.records = x.records) (hsub : y.submission = x.submission) (heng : y.engine = x.engine) (hpending : y.pendingQuiesce = x.pendingQuiesce)
    (hqueue : y.waitQueue = x.waitQueue) (hdir : y.dir = x.dir) (hphase : r.phase ≠ .free) (hfin : r.finished = true) (hvictim : r.victim = none)
    (hline : ∀ u ∈ x.waitQueue, u.line ≠ r.line) (hres : x.reservationOf r.line = none) (hdrain : r.servesDrain = 0#8) (hquiesce : r.servesQuiesce = false) :
    (y.withRecord i r).goOn env false = y := by
  have hy : y.still env := Slice.still_of_same env x y hx hrec hqueue hsub heng hpending hdir
  have hfree' : y.records[i] = Record.free := by rw [hrec, hfree]
  have hsame : Slice.SameBut i y (y.withRecord i r) := .of_set_same rfl rfl
  have hself : (y.withRecord i Record.free) = y := by
    have hset : y.records.set i Record.free = y.records := by
      rw [← hfree']
      exact Vector.set_getElem_self _
    rw [Slice.withRecord, hset]
  have hended : (y.withRecord i r).endedSlice env.sid i = y := by
    have hdrop : (y.withRecord i r).dropReservation env.sid i = y.withRecord i r := by
      have hnone : (y.withRecord i r).reservationOf (y.withRecord i r).records[i].line = none := by
        rw [Slice.withRecord_self]
        rwa [Slice.reservationOf, show (y.withRecord i r).getSet (setOf r.line) = x.getSet (setOf r.line) from congrArg (Sparse.get _ · _) hdir]
      simp only [Slice.dropReservation, hnone]
    have hjobs : y.engine.jobs.map (Job.recallEnded r) = y.engine.jobs := by
      refine (List.map_congr_left fun j _ => ?_).trans (List.map_id _)
      have hserves : r.serves j.kind = false := by
        cases j.kind with
        | drain a => rw [Record.serves, hdrain, BitVec.getLsbD_zero]
        | fence a => rfl
        | quiesce a => exact hquiesce
      rw [Job.recallEnded_eq, hserves]
      rfl
    rw [Slice.endedSlice, Slice.replaceRecord, hdrop, Slice.withRecord_self]
    refine Eq.trans ?_ hself
    have hset : (y.withRecord i r).records.set i Record.free = y.records.set i Record.free := by
      simp only [Slice.withRecord, Vector.set_set]
    simp only [hset]
    rw [show (y.withRecord i r).engine.jobs.map (Job.recallEnded r) = y.engine.jobs from hjobs]
    rfl
  have hgo : (y.withRecord i r).progress env i = some y := by
    have hnoOps : (y.withRecord i r).noOps i = true := (Slice.noOps_congr (x := x) hsub i).trans hops
    rw [Slice.progress_of_finished (by rw [Slice.withRecord_self]; exact hphase) (by rw [Slice.withRecord_self]; exact hfin), if_pos hnoOps,
      Slice.endRecord_of_none (env := env) (fun u hu => ?_) (fun u hu => ?_), hended]
    · rw [Slice.withRecord_self]
      exact hline u (hqueue ▸ hu)
    · rw [hended]
      exact hy.not_eligible (i := i) (by rw [hfree']; rfl) hu
  exact Slice.goOn_of_progress (hsame.findEviction hy (by rw [Slice.withRecord_self]; exact Record.evictionDone_of_no_victim hvictim))
    (hsame.progressAny hy hgo) hy

end

/-- Settles O26: the record that answers ends in the event of its start. -/
theorem aStartThatAnswersAtOnce : Obligations.AStartThatAnswersAtOnce := by
  unfold Obligations.AStartThatAnswersAtOnce
  intro sid n k tag line wd ms s hpin hpath hstill hnormal x hfenced hdraining hline hqueue hres hfree hcleared hidle answers
  obtain ⟨i, picks, hi, hexec⟩ := exec_requestArrival_starts hpin hpath hnormal hfenced hdraining hline hqueue hfree
  let begun : Record := Waiter.record (s.env sid) ⟨.agent n tag, k, line, wd⟩
  let y : Slice := { x with picks := picks }
  have hanswers {r : Response} (hstart : Slice.startRecord (s.env sid) i ⟨.agent n tag, k, line, wd⟩ y =
      (y.sends n (.response r)).withRecord i ({ begun with finished := true }.fixDeadline (s.env sid))) : answers r := by
    refine ⟨picks, hexec (fun x => { x.sends n (.response r) with picks := picks }) ?_⟩
    refine (congrArg (Slice.goOn (s.env sid) false) hstart).trans ?_
    exact Slice.goOn_finished hstill (hcleared i hi) (hidle i hi) rfl rfl rfl rfl rfl rfl (by exact (by decide : Phase.gather ≠ .free)) rfl rfl hqueue hres
      rfl rfl
  have hretry {w : WayIdx} (hentry : x.entryOf line = some (w, .owned n))
      (hstart : Slice.startRecord (s.env sid) i ⟨.agent n tag, k, line, wd⟩ y = (y.withRecord i begun).answerRetry (s.env sid) i .selfOwned) :
      answers (.retry tag .selfOwned) := hanswers (hstart.trans (Slice.answerRetry_withRecord rfl _))
  refine ⟨fun w hentry hk => ?_, fun w v hentry hk hwrite hmask => ?_, fun v hk hwrite hmask => ?_⟩
  · have hown := Slice.start_of_own (env := s.env sid) (i := i) (x := y) (r := begun) hentry
    obtain ⟨hshared, howned, hpromote, hsnapshot⟩ := hown
    refine hretry hentry ((Slice.startRecord_agent _ _ _ _ _ _ _ _).trans ?_)
    simp only [List.mem_cons, List.not_mem_nil, or_false] at hk
    rcases hk with rfl | rfl | rfl | rfl
    · exact hshared
    · exact howned
    · exact hpromote
    · exact hsnapshot
  · subst hk
    exact hretry hentry ((Slice.startRecord_agent _ _ _ _ _ _ _ _).trans (Slice.startMaskedWrite_of_own (r := begun) hwrite hmask hentry))
  · subst hk
    refine hanswers ((Slice.startRecord_agent _ _ _ _ _ _ _ _).trans ((Slice.startMaskedWrite_of_empty (r := begun) hwrite hmask).trans ?_))
    rw [Slice.respond_withRecord (r := begun) rfl, Slice.finish_withRecord]

end Sys2Proof.Machine

/-!
What the record of a start waits for, the starts on a line whose agent is fenced (R162, R164), and the requests that start at their arrival
(R40, R45, R46, R51, R54, R55, R94, R95, R101 to R103, R110).
-/

namespace Sys2Proof.Machine

/-! ## What a record waits for -/

section
variable {r : Record}

/-- A record that has its read outstanding waits for it. -/
theorem Record.goesOn_of_memRead (hphase : r.phase = .gather) (hfin : r.finished = false)
    (hkind : r.kind ∈ [Kind.fetchShared, .fetchOwned, .promote, .snapshot]) (hread : r.memRead = true) (noOps : Bool) : r.goesOn noOps = false := by
  have hready : r.grantReady = false := by
    simp only [Record.grantReady, hread, Bool.not_true, Bool.and_false, Bool.false_and]
  rw [Record.goesOn, hphase, hfin, hready, hread]
  generalize r.kind = k at hkind
  fin_cases hkind <;> simp

/-- A record that awaits a reply waits for it. -/
theorem Record.goesOn_of_awaitingReply (hphase : r.phase = .gather) (hfin : r.finished = false)
    (hwait : ∃ q ∈ r.waits, q.state = .awaitingReply) (noOps : Bool) : r.goesOn noOps = false := by
  obtain ⟨q, hq, hstate⟩ := hwait
  have hlive : q.live = true := by rw [Wait.live, hstate]
  have hawaits : r.awaits = true := by
    rw [Record.awaits, List.any_eq_true.mpr ⟨q, hq, hlive⟩]
    rfl
  have hready : r.grantReady = false := by
    simp only [Record.grantReady, hawaits, Bool.not_true, Bool.and_false, Bool.false_and]
  have hbase : r.baseKnown = false := by
    rw [Record.baseKnown, List.all_eq_false]
    exact ⟨q, hq, by rw [hlive, hstate]; decide⟩
  rw [Record.goesOn, hphase, hfin, hready, hawaits, hbase]
  cases r.kind <;> simp

/-- A record that has ordered its write waits until it is submitted. -/
theorem Record.goesOn_of_ordered (hphase : r.phase = .gather) (hfin : r.finished = false) (hkind : r.kind ∈ [Kind.maskedWrite, .scrub])
    (hordered : r.ordered = true) : r.goesOn false = false := by
  rw [Record.goesOn, hphase, hfin, hordered]
  generalize r.kind = k at hkind
  fin_cases hkind <;> simp

end

/-! ## The record's own line -/

section
variable {env : Env} {i : RecIdx} {r : Record} {x z : Slice} {l : LineAddr} {w : WayIdx} {b : Agent} {k : ProbeKind}

/-- The line of a record that started on a line that nobody held. -/
theorem Slice.holder_withRecord (hphase : r.phase ≠ .free) (hl : r.line = l) (hline : ∀ j : RecIdx, ¬x.records[j].holds l) :
    (x.withRecord i r).holder l = some i := by
  have hown : (x.withRecord i r).records[i].holds l := by
    rw [Slice.withRecord_self]
    exact ⟨hphase, .inl hl⟩
  have hsome : ((x.withRecord i r).holder l).isSome = true := (Slice.held_iff _ l).mpr ⟨i, hown⟩
  obtain ⟨j, hj⟩ := Option.isSome_iff_exists.mp hsome
  have hij : j = i := by
    by_contra hne
    have hother : (x.withRecord i r).records[j] = x.records[j] := (Slice.getElem_set_records _ _ _ _).trans (if_neg hne)
    exact hline j (hother ▸ Slice.holder_some hj)
  rw [hj, hij]

/-- What the way of the record's own line becomes when its entry is freed (R19). -/
theorem Slice.freedWay_withRecord (hphase : r.phase = .gather) (hl : r.line = l) (hvictim : r.victim = none) (hfenced : r.originFenced = false)
    (hline : ∀ j : RecIdx, ¬x.records[j].holds l) : (x.withRecord i r).freedWay env.sid l =
      if r.kind.caching then .reserved (tagOf l) (handleOf env.sid i) else .empty := by
  rw [Slice.freedWay_of_request (Slice.holder_withRecord (by rw [hphase]; decide) hl hline) (by rw [Slice.withRecord_self, hvictim]; exact Option.some_ne_none _ ∘ Eq.symm),
    Slice.withRecord_self, hphase, hfenced]
  simp

theorem AgentSet.toList_single (b : Agent) : AgentSet.toList (AgentSet.single b) = [b] := by
  revert b
  decide

theorem Slice.revokeAll_empty (v : Bool) (e : Entry) : x.revokeAll env i v e 0#8 = x := rfl

theorem Slice.revokeAll_single (v : Bool) (e : Entry) : x.revokeAll env i v e (AgentSet.single b) = x.probeAgent env i v .revoke e.role b := by
  rw [Slice.revokeAll, AgentSet.toList_single]
  rfl

/-! ## A fenced agent of the line (R162, R164) -/

theorem Slice.settleFenced_of_gone {q : Wait} {v : Bool} (hwait : (x.records[i].waitsOn v).find? (fun w => w.agent = b) = some q) (hrole : q.role = .sharer)
    (hstate : q.state = .awaitingReply) :
    x.settleFenced env i v b = (x.moveWaitOf env i v b (.settled .gone)).removeAgent env.sid (x.records[i].lineOn v) b := by
  obtain ⟨a, role, probe, state⟩ := q
  obtain rfl : role = .sharer := hrole
  obtain rfl : state = .awaitingReply := hstate
  simp only [Slice.settleFenced, hwait]

/-- The record whose one wait is settled: it awaits nobody. -/
def Record.settledOn (b : Agent) (role : Role) (k : ProbeKind) (how : SettledBy) (r : Record) : Record :=
  { r with waits := [⟨b, role, k, .settled how⟩], deadline := .stopped }

theorem Record.settledOn_idle {role : Role} {how : SettledBy} (hphase : r.phase = .gather) (hvictimWaits : r.victimWaits = []) :
    (r.settledOn b role k how).Idle := by
  refine ⟨Record.awaits_of_settled hphase fun q hq => ?_, rfl⟩
  rw [show (r.settledOn b role k how).victimWaits = [] from hvictimWaits, List.append_nil] at hq
  rw [List.mem_singleton.mp hq]
  rfl

/-- The probe to a fenced agent of a record that awaits nobody: its one wait is settled as the agent's role has it. -/
theorem Slice.moveWaitOf_fenced {role : Role} (how : SettledBy) (hphase : r.phase = .gather) (hwaits : r.waits = []) (hvictimWaits : r.victimWaits = []) :
    (x.withRecord i ((r.addWaits false [⟨b, role, k, .awaitingReply⟩]).fixDeadline env)).moveWaitOf env i false b (.settled how) =
      x.withRecord i (r.settledOn b role k how) := by
  let q : Wait := ⟨b, role, k, .awaitingReply⟩
  have hadd : (r.addWaits false [q]).waits = [q] := by rw [Record.addWaits, Record.setWaits, Record.waitsOn, hwaits]; rfl
  refine (Slice.moveWaitOf_only (role := role) (probe := k) (st := .awaitingReply) how (by rw [Slice.withRecord_self]; exact hphase)
    (by rw [Slice.withRecord_self]; exact hadd) fun q hq => ?_).trans ?_
  · rw [Slice.withRecord_self] at hq
    exact absurd (show q ∈ r.victimWaits from hq) (by rw [hvictimWaits]; exact List.not_mem_nil)
  · refine Eq.trans (b := (x.withRecord i _).withRecord i _) rfl ((Slice.withRecord_withRecord _ _).trans ?_)
    rw [Slice.withRecord_self]
    rfl

theorem Slice.find?_addWaits {role : Role} (hwaits : r.waits = []) :
    (((x.withRecord i ((r.addWaits false [⟨b, role, k, .awaitingReply⟩]).fixDeadline env)).records[i]).waitsOn false).find? (fun w => w.agent = b) =
      some ⟨b, role, k, .awaitingReply⟩ := by
  rw [Slice.withRecord_self]
  have hadd : ((r.addWaits false [⟨b, role, k, .awaitingReply⟩]).fixDeadline env).waitsOn false = [⟨b, role, k, .awaitingReply⟩] := by
    refine Eq.trans (b := r.waits ++ [⟨b, role, k, .awaitingReply⟩]) rfl ?_
    rw [hwaits]
    rfl
  rw [hadd]
  exact List.find?_cons_of_pos (decide_eq_true (rfl : b = b))

/-- A fenced agent that is the line's only sharer is gone, and the entry with it. -/
theorem Slice.probeAgent_gone (hfenced : x.fenced.getLsbD b = true) (hphase : r.phase = .gather) (hwaits : r.waits = []) (hvictim : r.victim = none)
    (hvictimWaits : r.victimWaits = []) (horigin : r.originFenced = false) (hentry : x.entryOf r.line = some (w, .shared (AgentSet.single b)))
    (hline : ∀ j : RecIdx, ¬x.records[j].holds r.line) : (x.withRecord i r).probeAgent env i false k .sharer b =
      (x.withWayOut (setOf r.line) w (if r.kind.caching then .reserved (tagOf r.line) (handleOf env.sid i) else .empty)).withRecord i
        (r.settledOn b .sharer k .gone) := by
  rw [Slice.probeAgent_withRecord_fenced k .sharer hfenced, Slice.settleFenced_of_gone (Slice.find?_addWaits hwaits) rfl rfl,
    Slice.moveWaitOf_fenced .gone hphase hwaits hvictimWaits, Slice.withRecord_self]
  have hentry' : (x.withRecord i (r.settledOn b .sharer k .gone)).entryOf r.line = some (w, .shared (AgentSet.single b)) := hentry
  refine (Slice.removeAgent_of_last (l := r.line) hentry' rfl).trans ((Slice.freeEntry_of_entry hentry').trans ?_)
  rw [Slice.freedWay_withRecord (env := env) (r := r.settledOn b .sharer k .gone) (l := r.line) hphase rfl hvictim horigin hline]
  rfl

/-- A fenced owner is a lost owner: a poison write for a request that reads memory, and its read behind it. -/
theorem Slice.probeAgent_lost_reads (hfenced : x.fenced.getLsbD b = true) (hphase : r.phase = .gather) (hwaits : r.waits = [])
    (hvictimWaits : r.victimWaits = []) (horigin : r.originFenced = false) (hkind : r.kind ∈ [Kind.fetchShared, .fetchOwned, .promote, .snapshot]) :
    (x.withRecord i r).probeAgent env i false k .owner b =
      ((x.orders (.poisonWrite r.line) (.record i)).orders (.read r.line (handleOf env.sid i)) (.record i)).withRecord i
        { (r.settledOn b .owner k .lost).replan with memRead := true } := by
  have hreplan : ∃ p, (r.settledOn b .owner k .lost).replan = { r.settledOn b .owner k .lost with plan := p } := by
    rw [Record.replan]
    split <;> exact ⟨_, rfl⟩
  obtain ⟨p, hp⟩ := hreplan
  have hidle : (r.settledOn b .owner k .lost).Idle := Record.settledOn_idle hphase hvictimWaits
  have hplanned : Record.Idle { r.settledOn b .owner k .lost with plan := p } := hidle.congr rfl rfl rfl rfl rfl
  have hread : Record.Idle { r.settledOn b .owner k .lost with plan := p, memRead := true } := hidle.congr rfl rfl rfl rfl rfl
  rw [Slice.probeAgent_withRecord_fenced k .owner hfenced, Slice.settleFenced_of_lost (Slice.find?_addWaits hwaits) rfl (.inl rfl),
    Slice.moveWaitOf_fenced .lost hphase hwaits hvictimWaits, Slice.lostOwner_of_reads (r := r.settledOn b .owner k .lost) (Slice.withRecord_self x i _) hkind,
    if_neg (by rw [show (r.settledOn b .owner k .lost).originFenced = false from horigin]; decide)]
  have hposed : (x.withRecord i (r.settledOn b .owner k .lost)).orders (.poisonWrite (r.settledOn b .owner k .lost).line) (.record i) =
    (x.orders (.poisonWrite r.line) (.record i)).withRecord i (r.settledOn b .owner k .lost) := rfl
  rw [hposed, Slice.updRec_withRecord, hp, hplanned.fixDeadline, Slice.orderRead_withRecord, hread.fixDeadline]
  rfl

/-- The writes of a MaskedWrite whose line's owner is lost (R162). -/
def Slice.ordersLost (i : RecIdx) (l : LineAddr) (d : WriteData) (x : Slice) : Slice :=
  if d.mask = BitVec.allOnes 64 then x.orders (.fullWrite l d.data) (.record i)
  else ((x.orders (.poisonWrite l) (.record i)).orders (.mergeWrite l d.data.bytes d.mask) (.record i)).orderPoisonIf d.data.poison l i

theorem Slice.Beside.ordersLost {y : Slice} (h : Slice.Beside i x y) (l : LineAddr) (d : WriteData) : Slice.Beside i x (y.ordersLost i l d) := by
  rw [Slice.ordersLost]
  split
  · exact h.orders _
  · exact ((h.orders _).orders _).orderPoisonIf _ _

theorem Slice.noOps_ordersLost (x : Slice) (l : LineAddr) (d : WriteData) : (x.ordersLost i l d).noOps i = false := by
  rw [Slice.ordersLost]
  split
  · exact Slice.noOps_orders _ _ _
  · exact Slice.noOps_orderPoisonIf _ (Slice.noOps_orders _ _ _)

theorem Slice.orderPoisonIf_eq (p : Bool) (l : LineAddr) (x : Slice) :
    x.orderPoisonIf p l i = { x with submission := x.submission ++ if p then [⟨.poisonWrite l, .record i⟩] else [] } := by
  cases p with
  | false => exact congrArg (fun ops => { x with submission := ops }) (List.append_nil _).symm
  | true => rfl

theorem Slice.ordersLost_eq (l : LineAddr) (d : WriteData) (x : Slice) : x.ordersLost i l d =
    { x with submission := x.submission ++
      if d.mask = BitVec.allOnes 64 then [⟨.fullWrite l d.data, .record i⟩]
      else ⟨.poisonWrite l, .record i⟩ :: ⟨.mergeWrite l d.data.bytes d.mask, .record i⟩ ::
        (if d.data.poison then [⟨.poisonWrite l, .record i⟩] else []) } := by
  rw [Slice.ordersLost]
  split
  · rfl
  · rw [Slice.orderPoisonIf_eq]
    simp only [Slice.orders, List.append_assoc, List.cons_append, List.nil_append]

/-- A fenced owner of a line that a MaskedWrite writes: the writes are ordered at once, and the entry is freed. -/
theorem Slice.probeAgent_lost_writes {d : WriteData} (hfenced : x.fenced.getLsbD b = true) (hphase : r.phase = .gather) (hwaits : r.waits = [])
    (hvictim : r.victim = none) (hvictimWaits : r.victimWaits = []) (horigin : r.originFenced = false) (hkind : r.kind = .maskedWrite) (hwrite : r.write = some d)
    (hentry : x.entryOf r.line = some (w, .owned b)) (hline : ∀ j : RecIdx, ¬x.records[j].holds r.line) :
    (x.withRecord i r).probeAgent env i false k .owner b =
      ((x.withWayOut (setOf r.line) w .empty).ordersLost i r.line d).withRecord i { r.settledOn b .owner k .lost with ordered := true } := by
  have hidle : (r.settledOn b .owner k .lost).Idle := Record.settledOn_idle hphase hvictimWaits
  have hordered : Record.Idle { r.settledOn b .owner k .lost with ordered := true } := hidle.congr rfl rfl rfl rfl rfl
  rw [Slice.probeAgent_withRecord_fenced k .owner hfenced, Slice.settleFenced_of_lost (Slice.find?_addWaits hwaits) rfl (.inl rfl),
    Slice.moveWaitOf_fenced .lost hphase hwaits hvictimWaits, Slice.lostOwner_of_maskedWrite (r := r.settledOn b .owner k .lost) (Slice.withRecord_self x i _) hkind hwrite]
  have hfreed : Slice.freeEntry ((x.withRecord i (r.settledOn b .owner k .lost)).ordersLost i r.line d) env.sid r.line =
      ((x.withWayOut (setOf r.line) w .empty).ordersLost i r.line d).withRecord i (r.settledOn b .owner k .lost) := by
    have hentry' : Slice.entryOf ((x.withRecord i (r.settledOn b .owner k .lost)).ordersLost i r.line d) r.line = some (w, .owned b) := by
      rw [Slice.ordersLost_eq]
      exact hentry
    have hway : Slice.freedWay ((x.withRecord i (r.settledOn b .owner k .lost)).ordersLost i r.line d) env.sid r.line = .empty := by
      rw [Slice.ordersLost_eq]
      refine (Slice.freedWay_withRecord (env := env) (x := x) (i := i) (r := r.settledOn b .owner k .lost) hphase rfl hvictim horigin hline).trans ?_
      rw [show (r.settledOn b .owner k .lost).kind = .maskedWrite from hkind]
      rfl
    rw [Slice.freeEntry_of_entry hentry', hway, Slice.ordersLost_eq, Slice.ordersLost_eq]
    rfl
  refine (congrArg (fun y => Slice.updRec env i (fun r => { r with ordered := true }) y) hfreed).trans ?_
  rw [Slice.updRec_withRecord, hordered.fixDeadline]

end

end Sys2Proof.Machine

/-!
The requests that start at their arrival: those that read memory or revoke sharers (R45, R46, R51, R54, R55, R94, R95, R101 to R103, R110,
R164), and those that probe an owner (R40, R68, R162).
-/

namespace Sys2Proof.Machine

section
variable {env : Env} {i : RecIdx} {n : Agent} {tag : Tag} {k : Kind} {l : LineAddr} {d : Option WriteData} {x y z : Slice} {r : Record} {w : WayIdx} {b : Agent}

/-- A start that leaves its record with something to wait for is the whole event. -/
theorem Slice.goOn_started (h : Slice.Beside i x z) (hx : x.still env) (hfree : x.records[i].phase = .free) (hy : y = z.withRecord i r)
    (hphase : r.phase = .gather) (hvictim : r.victim = none) (hgo : r.goesOn (z.noOps i) = false) : y.goOn env false = z.withRecord i r := by
  rw [hy]
  exact h.goOn hx hfree (by rw [hphase]; decide) (Record.evictionDone_of_no_victim hvictim) hgo

/-- A FetchOwned, and a Promote of an agent that is no sharer, start alike (R51, R55). -/
theorem Slice.startRecord_as_fetchOwned
    (h : k = .fetchOwned ∨ k = .promote ∧ ∀ w b, x.entryOf l = some (w, .shared b) → b.getLsbD n = false) :
    Slice.startRecord env i ⟨.agent n tag, k, l, d⟩ x = (x.withRecord i (Waiter.record env ⟨.agent n tag, k, l, d⟩)).startFetchOwned env i n := by
  rcases h with rfl | ⟨rfl, hsharer⟩
  · rfl
  · exact Slice.startPromote_of_not_sharer (r := Waiter.record env ⟨.agent n tag, .promote, l, d⟩) hsharer

theorem Slice.startRecord_of_fetchShared (h : k = .fetchShared) : Slice.startRecord env i ⟨.agent n tag, k, l, d⟩ x =
    (x.withRecord i (Waiter.record env ⟨.agent n tag, k, l, d⟩)).startFetchShared env i n := by
  subst h
  rfl

theorem Slice.startRecord_of_promote (h : k = .promote) : Slice.startRecord env i ⟨.agent n tag, k, l, d⟩ x =
    (x.withRecord i (Waiter.record env ⟨.agent n tag, k, l, d⟩)).startPromote env i n := by
  subst h
  rfl

theorem Slice.startRecord_of_snapshot (h : k = .snapshot) : Slice.startRecord env i ⟨.agent n tag, k, l, d⟩ x =
    (x.withRecord i (Waiter.record env ⟨.agent n tag, k, l, d⟩)).startSnapshot env i n := by
  subst h
  rfl

theorem Slice.startRecord_of_maskedWrite (h : k = .maskedWrite) : Slice.startRecord env i ⟨.agent n tag, k, l, d⟩ x =
    (x.withRecord i (Waiter.record env ⟨.agent n tag, k, l, d⟩)).startMaskedWrite env i n := by
  subst h
  rfl

theorem Slice.withWay_not_reserved {e : Entry} (h : x.entryOf l = some (w, e)) (t : BitVec 15) (g : Handle) :
    (x.getSet (setOf l)).ways[w] ≠ .reserved t g := by
  rw [Slice.entryOf_some h]
  exact nofun

/-- A MaskedWrite orders its merge write, and frees nothing where its line has no entry (R102). -/
theorem Slice.progress_merge {wd : WriteData} (hphase : r.phase = .gather) (hfin : r.finished = false) (hkind : r.kind = .maskedWrite) (hordered : r.ordered = false)
    (hwrite : r.write = some wd) (hbuffer : r.buffer = none) (hsettled : ∀ q ∈ r.waits, q.live = false) (hidle : r.Idle) (hentry : x.entryOf r.line = none) :
    (x.withRecord i r).progress env i = some
      (((x.orders (.mergeWrite r.line wd.data.bytes wd.mask) (.record i)).orderPoisonIf wd.data.poison r.line i).withRecord i { r with ordered := true }) := by
  have hbase : r.baseKnown = true := by
    rw [Record.baseKnown, List.all_eq_true]
    exact fun q hq => by rw [hsettled q hq]; rfl
  have hself : (x.withRecord i r).records[i] = r := Slice.withRecord_self x i r
  have hwritten : Record.Idle { r with ordered := true } := hidle.congr rfl rfl rfl rfl rfl
  rw [Slice.progress_maskedWrite (by rw [hself]; exact hphase) (by rw [hself]; exact hfin) (by rw [hself]; exact hkind), hself, hordered, hbase,
    Slice.orderWrite_of_none (by rw [hself]; exact hwrite) (by rw [hself]; exact hkind) (by rw [hself]; exact hbuffer), hself]
  have hplace : ((x.withRecord i r).orders (.mergeWrite r.line wd.data.bytes wd.mask) (.record i)).orderPoisonIf wd.data.poison r.line i =
      ((x.orders (.mergeWrite r.line wd.data.bytes wd.mask) (.record i)).orderPoisonIf wd.data.poison r.line i).withRecord i r := by
    cases wd.data.poison <;> rfl
  have hnone : Slice.entryOf (((x.orders (.mergeWrite r.line wd.data.bytes wd.mask) (.record i)).orderPoisonIf wd.data.poison r.line i).withRecord i r) r.line = none := by
    cases wd.data.poison <;> exact hentry
  rw [hplace, Slice.freeEntry_of_none hnone, Slice.updRec_withRecord, hwritten.fixDeadline]
  rfl

theorem Slice.ordersMerge_eq {wd : WriteData} : (x.orders (.mergeWrite l wd.data.bytes wd.mask) (.record i)).orderPoisonIf wd.data.poison l i =
    { x with submission := x.submission ++
      (⟨.mergeWrite l wd.data.bytes wd.mask, .record i⟩ :: if wd.data.poison then [⟨.poisonWrite l, .record i⟩] else []) } := by
  rw [Slice.orderPoisonIf_eq]
  simp only [Slice.orders, List.append_assoc, List.cons_append, List.nil_append]

/-- A line loses its entry where its only way becomes EMPTY (R7). -/
theorem Slice.entryOf_withWayOut_empty {sid : SliceId} {e : Entry} (hx : x.directoryConsistent sid) (h : x.entryOf l = some (w, e)) :
    (x.withWayOut (setOf l) w .empty).entryOf l = none := by
  obtain ⟨hwf, honeway, -⟩ := hx
  by_contra hentry
  obtain ⟨v, e', hv⟩ := Slice.entryOf_ne_none.mp hentry
  rw [Slice.withWayOut, Slice.getSet_putSet hwf, if_pos rfl, getElem_set_ways] at hv
  split at hv
  · cases hv
  · next hvw => exact hvw (honeway _ v w _ (.inl ⟨e', hv⟩) (.inl ⟨e, Slice.entryOf_some h⟩))

/-- A record that starts and goes on once. -/
theorem Slice.goOn_started_progress {r' : Record} (h : Slice.Beside i x y) (h' : Slice.Beside i x z) (hx : x.still env) (hfree : x.records[i].phase = .free)
    (hvictim : r.victim = none) (hvictim' : r'.victim = none) (hphase' : r'.phase ≠ .free)
    (hgo : (y.withRecord i r).progress env i = some (z.withRecord i r')) (hgo' : r'.goesOn (z.noOps i) = false) :
    (y.withRecord i r).goOn env false = z.withRecord i r' :=
  h.goOn_progress hx (Record.evictionDone_of_no_victim hvictim) hgo (h'.still hx hfree hphase' (Record.evictionDone_of_no_victim hvictim') hgo')

theorem AgentSet.erase_of_not_mem {c : AgentSet} (h : c.getLsbD n = false) : AgentSet.erase c n = c := by
  refine AgentSet.ext fun m => ?_
  rw [AgentSet.getLsbD_erase]
  by_cases hm : m = n
  · rw [hm, h, Bool.false_and]
  · rw [decide_eq_false hm, Bool.not_false, Bool.and_true]

/-- Who is probed is awaited. -/
theorem exists_waitsOnAgents {c : AgentSet} (hc : c ≠ 0#8) (role : Role) (p : ProbeKind) :
    ∃ q ∈ waitsOnAgents c role p, q.state = .awaitingReply := by
  have hmem : ∃ m : Agent, c.getLsbD m = true := by
    by_contra hnone
    refine hc (AgentSet.ext fun m => ?_)
    rw [BitVec.getLsbD_zero]
    exact Bool.eq_false_iff.mpr fun h => hnone ⟨m, h⟩
  obtain ⟨m, hm⟩ := hmem
  exact ⟨⟨m, role, p, .awaitingReply⟩, List.mem_map.mpr ⟨m, List.mem_filter.mpr ⟨List.mem_finRange m, hm⟩, rfl⟩, rfl⟩

theorem Slice.granted_withRecord {a : Agent} {m : Response} {e : Entry} : (x.withRecord i r).granted env i w r a m e =
    ((x.sends a (.response m)).withWayFront (setOf r.line) w (.occupied (tagOf r.line) e)).withRecord i
      { r with phase := .confirm, buffer := none, deadline := .running (env.now + env.timeout) } := by
  simp only [Slice.granted, Slice.withRecord, Vector.set_set]
  rfl

end

/-! ## The starts of the requests that read memory, revoke sharers, or write (O24) -/

/-- Record i of `x` is FREE, and a start in it finds `y`, which is `x` but for the counter of choices. -/
structure Slice.Begins (env : Env) (i : RecIdx) (x y : Slice) : Prop where
  still : x.still env
  free : x.records[i].phase = .free
  beside : Slice.Beside i x y

/-- The record of a start whose decision has made the plan. -/
def Waiter.planned (env : Env) (p : Plan) (u : Waiter) : Record := { u.record env with plan := p }

theorem Waiter.planned_idle (env : Env) (p : Plan) (u : Waiter) : (u.planned env p).Idle := ⟨rfl, rfl⟩

/-- The record that awaits the sharers it revokes. -/
def Record.revoking (env : Env) (c : AgentSet) (r : Record) : Record :=
  { r with waits := waitsOnAgents c .sharer .revoke, deadline := env.deadlineFor c }

namespace Slice.Begins

section
variable {env : Env} {i : RecIdx} {n b : Agent} {tag : Tag} {k : Kind} {l : LineAddr} {d : Option WriteData} {x y z : Slice} {w : WayIdx} {a : AgentSet}
  {wd : WriteData} {p : Plan}

/-- A start that has ordered its read is the whole event. -/
theorem reads (h : Begins env i x y) (hk : k ∈ [Kind.fetchShared, .fetchOwned, .promote, .snapshot]) (hz : Slice.Beside i x z)
    (hstarted : Slice.startRecord env i ⟨.agent n tag, k, l, d⟩ y = z.withRecord i { Waiter.planned env p ⟨.agent n tag, k, l, d⟩ with memRead := true }) :
    (Slice.startRecord env i ⟨.agent n tag, k, l, d⟩ y).goOn env false =
      z.withRecord i { Waiter.planned env p ⟨.agent n tag, k, l, d⟩ with memRead := true } :=
  Slice.goOn_started hz h.still h.free hstarted rfl rfl (Record.goesOn_of_memRead rfl rfl hk rfl _)

theorem snapshot_reads (h : Begins env i x y) (hk : k = .snapshot) (hentry : ∀ w b, y.entryOf l ≠ some (w, .owned b)) :
    (Slice.startRecord env i ⟨.agent n tag, k, l, d⟩ y).goOn env false =
      (y.orders (.read l (handleOf env.sid i)) (.record i)).withRecord i
        { Waiter.planned env .snapshotData ⟨.agent n tag, k, l, d⟩ with memRead := true } :=
  h.reads (by rw [hk]; decide) (h.beside.orders _) ((Slice.startRecord_of_snapshot hk).trans
    (Slice.startSnapshot_of_not_owned (r := Waiter.record env ⟨.agent n tag, k, l, d⟩) hentry (Waiter.record_idle _)))

theorem fetchShared_reads (h : Begins env i x y) (hk : k = .fetchShared) (hentry : y.entryOf l = some (w, .shared a)) :
    (Slice.startRecord env i ⟨.agent n tag, k, l, d⟩ y).goOn env false =
      (y.orders (.read l (handleOf env.sid i)) (.record i)).withRecord i
        { Waiter.planned env (if a = AgentSet.single n then solePlan env.exclusive n else .grantShared (AgentSet.insert a n)) ⟨.agent n tag, k, l, d⟩ with
          memRead := true } :=
  h.reads (by rw [hk]; decide) (h.beside.orders _) ((Slice.startRecord_of_fetchShared hk).trans
    (Slice.startFetchShared_of_shared (r := Waiter.record env ⟨.agent n tag, k, l, d⟩) hentry (Waiter.record_idle _)))

/-- The lowest EMPTY way is reserved for the line (R110). -/
theorem reserves (h : Begins env i x y) (hempty : (y.getSet (setOf l)).findEmpty = some w) :
    Slice.Beside i x (y.withWay (setOf l) w (.reserved (tagOf l) (handleOf env.sid i))) :=
  h.beside.putSet fun t g hway => by
    rw [DirSet.findEmpty_some hempty] at hway
    cases hway

theorem fetchShared_reserves (h : Begins env i x y) (hk : k = .fetchShared) (hentry : y.entryOf l = none)
    (hempty : (y.getSet (setOf l)).findEmpty = some w) : (Slice.startRecord env i ⟨.agent n tag, k, l, d⟩ y).goOn env false =
      ((y.withWay (setOf l) w (.reserved (tagOf l) (handleOf env.sid i))).orders (.read l (handleOf env.sid i)) (.record i)).withRecord i
        { Waiter.planned env (solePlan env.exclusive n) ⟨.agent n tag, k, l, d⟩ with memRead := true } := by
  let r : Record := Waiter.record env ⟨.agent n tag, k, l, d⟩
  exact h.reads (by rw [hk]; decide) ((h.reserves hempty).orders _) ((Slice.startRecord_of_fetchShared hk).trans
    ((Slice.startFetchShared_of_none (r := r) hentry).trans (Slice.needWay_of_empty (r := r) (Waiter.record_idle _) hempty _)))

theorem fetchOwned_reserves (h : Begins env i x y) (hk : k = .fetchOwned ∨ k = .promote) (hentry : y.entryOf l = none)
    (hempty : (y.getSet (setOf l)).findEmpty = some w) : (Slice.startRecord env i ⟨.agent n tag, k, l, d⟩ y).goOn env false =
      ((y.withWay (setOf l) w (.reserved (tagOf l) (handleOf env.sid i))).orders (.read l (handleOf env.sid i)) (.record i)).withRecord i
        { Waiter.planned env .grantOwned ⟨.agent n tag, k, l, d⟩ with memRead := true } := by
  let r : Record := Waiter.record env ⟨.agent n tag, k, l, d⟩
  have hkind : k ∈ [Kind.fetchShared, .fetchOwned, .promote, .snapshot] := by rcases hk with hk | hk <;> simp [hk]
  have hnotSharer (v : WayIdx) (c : AgentSet) (hc : y.entryOf l = some (v, .shared c)) : c.getLsbD n = false := by
    rw [hentry] at hc
    cases hc
  exact h.reads hkind ((h.reserves hempty).orders _) ((Slice.startRecord_as_fetchOwned (hk.imp_right fun hk => ⟨hk, hnotSharer⟩)).trans
    ((Slice.startFetchOwned_of_none (r := r) hentry).trans (Slice.needWay_of_empty (r := r) (Waiter.record_idle _) hempty _)))

/-- A record whose base value is known merges, and waits for its write (R102). -/
theorem merges {r : Record} (h : Begins env i x y) (hz : Slice.Beside i x z) (hstarted : Slice.startRecord env i ⟨.agent n tag, k, l, d⟩ y = z.withRecord i r)
    (hphase : r.phase = .gather) (hfin : r.finished = false) (hkind : r.kind = .maskedWrite) (hordered : r.ordered = false) (hwrite : r.write = some wd)
    (hbuffer : r.buffer = none) (hvictim : r.victim = none) (hsettled : ∀ q ∈ r.waits, q.live = false) (hidle : r.Idle) (hl : r.line = l)
    (hentry : z.entryOf l = none) : (Slice.startRecord env i ⟨.agent n tag, k, l, d⟩ y).goOn env false =
      ({ z with submission := z.submission ++
        (⟨.mergeWrite l wd.data.bytes wd.mask, .record i⟩ :: if wd.data.poison then [⟨.poisonWrite l, .record i⟩] else []) } : Slice).withRecord i
        { r with ordered := true } := by
  subst hl
  have hgo := Slice.progress_merge (env := env) (i := i) hphase hfin hkind hordered hwrite hbuffer hsettled hidle hentry
  have hnoOps : ((z.orders (.mergeWrite r.line wd.data.bytes wd.mask) (.record i)).orderPoisonIf wd.data.poison r.line i).noOps i = false :=
    Slice.noOps_orderPoisonIf _ (Slice.noOps_orders _ _ _)
  rw [hstarted, Slice.goOn_started_progress (r' := { r with ordered := true }) hz ((hz.orders _).orderPoisonIf _ _) h.still h.free hvictim hvictim
    (by rw [hphase]; decide) hgo (by rw [hnoOps]; exact Record.goesOn_of_ordered hphase hfin (by rw [hkind]; decide) rfl), Slice.ordersMerge_eq]

theorem maskedWrite_merges (h : Begins env i x y) (hk : k = .maskedWrite) (hwrite : d = some wd) (hmask : wd.mask ≠ 0#64) (hentry : y.entryOf l = none) :
    (Slice.startRecord env i ⟨.agent n tag, k, l, d⟩ y).goOn env false =
      ({ y with submission := y.submission ++
        (⟨.mergeWrite l wd.data.bytes wd.mask, .record i⟩ :: if wd.data.poison then [⟨.poisonWrite l, .record i⟩] else []) } : Slice).withRecord i
        { Waiter.planned env .writeDone ⟨.agent n tag, k, l, d⟩ with ordered := true } :=
  h.merges h.beside ((Slice.startRecord_of_maskedWrite hk).trans
    (Slice.startMaskedWrite_of_none (r := Waiter.record env ⟨.agent n tag, k, l, d⟩) hwrite hmask (Waiter.record_idle _) hentry))
    rfl rfl hk rfl hwrite rfl rfl (fun _ hq => absurd hq List.not_mem_nil) (Waiter.planned_idle _ _ _) rfl hentry

/-- A start that revokes sharers and reads nothing is the whole event. -/
theorem revokes (h : Begins env i x y) (ha : a ≠ 0#8)
    (hstarted : Slice.startRecord env i ⟨.agent n tag, k, l, d⟩ y =
      (y.probes a ⟨.revoke, handleOf env.sid i, l⟩).withRecord i ((Waiter.planned env p ⟨.agent n tag, k, l, d⟩).revoking env a)) :
    (Slice.startRecord env i ⟨.agent n tag, k, l, d⟩ y).goOn env false =
      (y.probes a ⟨.revoke, handleOf env.sid i, l⟩).withRecord i ((Waiter.planned env p ⟨.agent n tag, k, l, d⟩).revoking env a) :=
  Slice.goOn_started (h.beside.probes _ _) h.still h.free hstarted rfl rfl
    (Record.goesOn_of_awaitingReply rfl rfl (exists_waitsOnAgents ha .sharer .revoke) _)

theorem fetchOwned_revokes (h : Begins env i x y) (hk : k = .fetchOwned ∨ k = .promote ∧ a.getLsbD n = false) (hentry : y.entryOf l = some (w, .shared a))
    (hothers : ∀ m : Agent, (AgentSet.erase a n).getLsbD m = true → y.fenced.getLsbD m = false) :
    (Slice.startRecord env i ⟨.agent n tag, k, l, d⟩ y).goOn env false =
      ((y.probes (AgentSet.erase a n) ⟨.revoke, handleOf env.sid i, l⟩).orders (.read l (handleOf env.sid i)) (.record i)).withRecord i
        ({ Waiter.planned env .grantOwned ⟨.agent n tag, k, l, d⟩ with memRead := true }.revoking env (AgentSet.erase a n)) := by
  have hkind : k ∈ [Kind.fetchShared, .fetchOwned, .promote, .snapshot] := by rcases hk with hk | ⟨hk, -⟩ <;> simp [hk]
  have hnotSharer (hn : a.getLsbD n = false) (v : WayIdx) (c : AgentSet) (hc : y.entryOf l = some (v, .shared c)) : c.getLsbD n = false := by
    rw [hentry] at hc
    obtain ⟨-, rfl⟩ := by simpa using hc
    exact hn
  have hstarted := (Slice.startRecord_as_fetchOwned (env := env) (i := i) (tag := tag) (d := d) (hk.imp_right fun hk => ⟨hk.1, hnotSharer hk.2⟩)).trans
    ((Slice.startFetchOwned_of_shared (r := Waiter.record env ⟨.agent n tag, k, l, d⟩) hentry (Waiter.record_idle _)).trans
      (Slice.revokeAll_orderRead (.shared a) _ hothers (Waiter.planned_idle env .grantOwned _)))
  exact Slice.goOn_started ((h.beside.probes _ _).orders _) h.still h.free hstarted rfl rfl (Record.goesOn_of_memRead rfl rfl hkind rfl _)

theorem promote_revokes (h : Begins env i x y) (hk : k = .promote) (hentry : y.entryOf l = some (w, .shared a)) (hn : a.getLsbD n = true)
    (hothers : ∀ m : Agent, (AgentSet.erase a n).getLsbD m = true → y.fenced.getLsbD m = false) (hne : AgentSet.erase a n ≠ 0#8) :
    (Slice.startRecord env i ⟨.agent n tag, k, l, d⟩ y).goOn env false =
      (y.probes (AgentSet.erase a n) ⟨.revoke, handleOf env.sid i, l⟩).withRecord i
        ((Waiter.planned env .grantPromote ⟨.agent n tag, k, l, d⟩).revoking env (AgentSet.erase a n)) :=
  h.revokes hne ((Slice.startRecord_of_promote hk).trans
    ((Slice.startPromote_of_sharer (r := Waiter.record env ⟨.agent n tag, k, l, d⟩) hentry hn (Waiter.record_idle _)).trans
      (Slice.revokeAll_withRecord (v := false) (r := Waiter.planned env .grantPromote ⟨.agent n tag, k, l, d⟩) (.shared a) _ hothers rfl rfl)))

theorem maskedWrite_revokes (h : Begins env i x y) (hk : k = .maskedWrite) (hwrite : d = some wd) (hmask : wd.mask ≠ 0#64)
    (hentry : y.entryOf l = some (w, .shared a)) (hunfenced : ∀ m : Agent, a.getLsbD m = true → y.fenced.getLsbD m = false) (hne : a ≠ 0#8) :
    (Slice.startRecord env i ⟨.agent n tag, k, l, d⟩ y).goOn env false =
      (y.probes a ⟨.revoke, handleOf env.sid i, l⟩).withRecord i ((Waiter.planned env .writeDone ⟨.agent n tag, k, l, d⟩).revoking env a) :=
  h.revokes hne ((Slice.startRecord_of_maskedWrite hk).trans
    ((Slice.startMaskedWrite_of_shared (r := Waiter.record env ⟨.agent n tag, k, l, d⟩) hwrite hmask (Waiter.record_idle _) hentry).trans
      (Slice.revokeAll_withRecord (v := false) (r := Waiter.planned env .writeDone ⟨.agent n tag, k, l, d⟩) (.shared a) a hunfenced rfl rfl)))

/-- A Promote of the only sharer is granted in the event of its start (R54, R60, R61). -/
theorem promote_grants (h : Begins env i x y) (hk : k = .promote) (hentry : y.entryOf l = some (w, .shared (AgentSet.single n))) :
    (Slice.startRecord env i ⟨.agent n tag, k, l, d⟩ y).goOn env false =
      ((y.sends n (.response (.grantPromote tag (handleOf env.sid i)))).withWayFront (setOf l) w (.occupied (tagOf l) (.owned n))).withRecord i
        { Waiter.planned env .grantPromote ⟨.agent n tag, k, l, d⟩ with phase := .confirm, deadline := .running (env.now + env.timeout) } := by
  let r : Record := Waiter.planned env .grantPromote ⟨.agent n tag, k, l, d⟩
  have hstarted : Slice.startRecord env i ⟨.agent n tag, k, l, d⟩ y = y.withRecord i r := by
    refine (Slice.startRecord_of_promote hk).trans ((Slice.startPromote_of_sharer (r := Waiter.record env ⟨.agent n tag, k, l, d⟩) hentry
      (AgentSet.getLsbD_single_self n) (Waiter.record_idle _)).trans ?_)
    rw [AgentSet.erase_single, Slice.revokeAll_empty]
    rfl
  have hkind : r.kind ∈ [Kind.fetchShared, .fetchOwned, .promote] := by
    rw [show r.kind = .promote from hk]
    decide
  have hgrant := Slice.progress_grant (env := env) (i := i) (x := y.withRecord i r) (a := n) (m := .grantPromote tag (handleOf env.sid i)) (e := .owned n) (w := w)
    (Slice.withRecord_self _ _ _) ⟨rfl, hkind, rfl, rfl, rfl, rfl, fun q hq => absurd hq List.not_mem_nil⟩ rfl (.inl ⟨_, hentry⟩)
  rw [Slice.granted_withRecord] at hgrant
  have hz := (h.beside.sends n (.response (.grantPromote tag (handleOf env.sid i)))).putSet (a := .occupied (tagOf l) (.owned n))
    (recency := w :: (y.getSet (setOf l)).recency.erase w) fun t g => Slice.withWay_not_reserved hentry t g
  exact (congrArg (Slice.goOn env false) hstarted).trans (Slice.goOn_started_progress h.beside hz h.still h.free rfl rfl
    (by exact (by decide : Phase.confirm ≠ .free)) hgrant rfl)

/-- The revoke of a fenced agent that is the only sharer (R164). -/
theorem revokeAll_gone (hline : ∀ j : RecIdx, ¬y.records[j].holds l) (hentry : y.entryOf l = some (w, .shared (AgentSet.single b)))
    (hfenced : y.fenced.getLsbD b = true) (p : Plan) :
    (y.withRecord i (Waiter.planned env p ⟨.agent n tag, k, l, d⟩)).revokeAll env i false (.shared (AgentSet.single b)) (AgentSet.single b) =
      (y.withWayOut (setOf l) w (if k.caching then .reserved (tagOf l) (handleOf env.sid i) else .empty)).withRecord i
        ((Waiter.planned env p ⟨.agent n tag, k, l, d⟩).settledOn b .sharer .revoke .gone) := by
  rw [Slice.revokeAll_single]
  exact Slice.probeAgent_gone (r := Waiter.planned env p ⟨.agent n tag, k, l, d⟩) hfenced rfl rfl rfl rfl rfl hentry hline

theorem fetchOwned_gone (h : Begins env i x y) (hk : k = .fetchOwned ∨ k = .promote) (hline : ∀ j : RecIdx, ¬y.records[j].holds l)
    (hentry : y.entryOf l = some (w, .shared (AgentSet.single b))) (hb : b ≠ n) (hfenced : y.fenced.getLsbD b = true) :
    (Slice.startRecord env i ⟨.agent n tag, k, l, d⟩ y).goOn env false =
      ((y.withWayOut (setOf l) w (.reserved (tagOf l) (handleOf env.sid i))).orders (.read l (handleOf env.sid i)) (.record i)).withRecord i
        { (Waiter.planned env .grantOwned ⟨.agent n tag, k, l, d⟩).settledOn b .sharer .revoke .gone with memRead := true } := by
  let r : Record := Waiter.planned env .grantOwned ⟨.agent n tag, k, l, d⟩
  have hkind : k ∈ [Kind.fetchShared, .fetchOwned, .promote, .snapshot] ∧ k.caching = true := by rcases hk with hk | hk <;> simp [hk, Kind.caching]
  obtain ⟨hreading, hcaching⟩ := hkind
  have hn : (AgentSet.single b).getLsbD n = false := by
    rw [AgentSet.getLsbD_single]
    exact decide_eq_false (Ne.symm hb)
  have hnotSharer (v : WayIdx) (c : AgentSet) (hc : y.entryOf l = some (v, .shared c)) : c.getLsbD n = false := by
    rw [hentry] at hc
    obtain ⟨-, rfl⟩ := by simpa using hc
    exact hn
  have hread : Record.Idle { r.settledOn b .sharer .revoke .gone with memRead := true } :=
    (Record.settledOn_idle (r := r) rfl rfl).congr rfl rfl rfl rfl rfl
  have hstarted : Slice.startRecord env i ⟨.agent n tag, k, l, d⟩ y =
      ((y.withWayOut (setOf l) w (.reserved (tagOf l) (handleOf env.sid i))).orders (.read l (handleOf env.sid i)) (.record i)).withRecord i
        { r.settledOn b .sharer .revoke .gone with memRead := true } := by
    refine (Slice.startRecord_as_fetchOwned (hk.imp_right fun hk => ⟨hk, hnotSharer⟩)).trans
      ((Slice.startFetchOwned_of_shared (r := Waiter.record env ⟨.agent n tag, k, l, d⟩) hentry (Waiter.record_idle _)).trans ?_)
    rw [AgentSet.erase_of_not_mem hn]
    refine (congrArg (Slice.orderRead env i) (revokeAll_gone hline hentry hfenced .grantOwned)).trans ?_
    rw [Slice.orderRead_withRecord, hread.fixDeadline, if_pos hcaching]
    rfl
  have hout : Slice.Beside i x (y.withWayOut (setOf l) w (.reserved (tagOf l) (handleOf env.sid i))) :=
    h.beside.putSet fun t g => Slice.withWay_not_reserved hentry t g
  exact Slice.goOn_started (hout.orders _) h.still h.free hstarted rfl rfl (Record.goesOn_of_memRead rfl rfl hreading rfl _)

theorem maskedWrite_gone {sid : SliceId} (h : Begins env i x y) (hk : k = .maskedWrite) (hwrite : d = some wd) (hmask : wd.mask ≠ 0#64)
    (hline : ∀ j : RecIdx, ¬y.records[j].holds l) (hentry : y.entryOf l = some (w, .shared (AgentSet.single b))) (hfenced : y.fenced.getLsbD b = true)
    (hdir : y.directoryConsistent sid) : (Slice.startRecord env i ⟨.agent n tag, k, l, d⟩ y).goOn env false =
      ({ y.withWayOut (setOf l) w .empty with submission := y.submission ++
        (⟨.mergeWrite l wd.data.bytes wd.mask, .record i⟩ :: if wd.data.poison then [⟨.poisonWrite l, .record i⟩] else []) } : Slice).withRecord i
        { (Waiter.planned env .writeDone ⟨.agent n tag, k, l, d⟩).settledOn b .sharer .revoke .gone with ordered := true } := by
  have hcaching : k.caching = false := by
    rw [hk]
    rfl
  have hstarted : Slice.startRecord env i ⟨.agent n tag, k, l, d⟩ y = (y.withWayOut (setOf l) w .empty).withRecord i
      ((Waiter.planned env .writeDone ⟨.agent n tag, k, l, d⟩).settledOn b .sharer .revoke .gone) := by
    refine (Slice.startRecord_of_maskedWrite hk).trans ((Slice.startMaskedWrite_of_shared (r := Waiter.record env ⟨.agent n tag, k, l, d⟩) hwrite hmask
      (Waiter.record_idle _) hentry).trans ((revokeAll_gone hline hentry hfenced .writeDone).trans ?_))
    rw [if_neg (by rw [hcaching]; decide)]
  exact h.merges (h.beside.putSet fun t g => Slice.withWay_not_reserved hentry t g) hstarted rfl rfl hk rfl hwrite rfl rfl
    (fun q hq => by rw [List.mem_singleton.mp hq]; rfl) (Record.settledOn_idle rfl rfl) rfl (Slice.entryOf_withWayOut_empty hdir hentry)

end

end Slice.Begins

/-- Settles O24: each decision leaves its record with something to wait for, or with its write or grant to make. -/
theorem aRequestThatReadsMemoryStarts : Obligations.ARequestThatReadsMemoryStarts := by
  unfold Obligations.ARequestThatReadsMemoryStarts
  intro sid n k tag line wd ms s hpin hpath hstill hnormal x hfenced hdraining hline hqueue hfree env sole begun read merge starts revokes awaiting
  obtain ⟨i, picks, hi, hexec⟩ := exec_requestArrival_starts hpin hpath hnormal hfenced hdraining hline hqueue hfree
  have hbegins : Slice.Begins env i x { x with picks := picks } := ⟨hstill, hi, .picks i x picks⟩
  have hstarts (place : RecIdx → Slice → Slice) (ops : RecIdx → List Ordered) {r : Record}
      (h : (Slice.startRecord env i ⟨.agent n tag, k, line, wd⟩ { x with picks := picks }).goOn env false =
        place i { x with picks := picks, records := x.records.set i r, submission := x.submission ++ ops i }) : starts r ops place :=
    ⟨i, picks, hi, hexec (fun x => place i { x with picks := picks, records := x.records.set i r, submission := x.submission ++ ops i }) h⟩
  have hnoOps {z : Slice} {r : Record} : z.withRecord i r = Slice.withRecord { z with submission := z.submission ++ [] } i r :=
    congrArg (fun ops => Slice.withRecord { z with submission := ops } i r) (List.append_nil _).symm
  refine ⟨fun hk hentry => hstarts (fun _ x => x) read (hbegins.snapshot_reads hk hentry),
    fun w a hk hentry => hstarts (fun _ x => x) read (hbegins.fetchShared_reads hk hentry), ?_,
    fun v hk hwrite hmask hentry => hstarts (fun _ x => x) (merge v) (hbegins.maskedWrite_merges hk hwrite hmask hentry), ?_, ?_⟩
  · intro w hentry hempty reserve
    exact ⟨fun hk => hstarts reserve read (hbegins.fetchShared_reserves hk hentry hempty),
      fun hk => hstarts reserve read (hbegins.fetchOwned_reserves hk hentry hempty)⟩
  · intro w a hentry hunfenced others
    have hothers (m : Agent) (hm : (AgentSet.erase a n).getLsbD m = true) : x.fenced.getLsbD m = false := by
      rw [AgentSet.getLsbD_erase, Bool.and_eq_true, Bool.not_eq_true', decide_eq_false_iff_not] at hm
      exact hunfenced m hm.1 hm.2
    have hsharers (m : Agent) (hm : a.getLsbD m = true) : x.fenced.getLsbD m = false := by
      by_cases hmn : m = n
      · exact hmn ▸ hfenced
      · exact hunfenced m hm hmn
    refine ⟨fun hk => hstarts (revokes others) read (hbegins.fetchOwned_revokes hk hentry hothers),
      fun hk hn hne => hstarts (revokes others) (fun _ => []) ((hbegins.promote_revokes hk hentry hn hothers hne).trans hnoOps),
      fun hk ha => hstarts (fun i x => (x.sends n (.response (.grantPromote tag (handleOf sid i)))).withWayFront (setOf line) w (.occupied (tagOf line) (.owned n)))
        (fun _ => []) ?_,
      fun v hk hwrite hmask hne => hstarts (revokes a) (fun _ => []) ((hbegins.maskedWrite_revokes hk hwrite hmask hentry hsharers hne).trans hnoOps)⟩
    subst ha
    exact (hbegins.promote_grants hk hentry).trans hnoOps
  · intro w b hentry hb hfencedb gone
    exact ⟨fun hk => hstarts (fun i x => x.withWayOut (setOf line) w (.reserved (tagOf line) (handleOf sid i))) read
        (hbegins.fetchOwned_gone hk hline hentry hb hfencedb),
      fun v hk hwrite hmask hdir => hstarts (fun _ x => x.withWayOut (setOf line) w .empty) (merge v)
        (hbegins.maskedWrite_gone (sid := sid) hk hwrite hmask hline hentry hfencedb hdir)⟩

end Sys2Proof.Machine

/-!
The requests that find their line OWNED by another agent (R40, R46, R51, R55, R68, R94, R101, R162, R164).
-/

namespace Sys2Proof.Machine

section
variable {env : Env} {i : RecIdx} {n b : Agent} {tag : Tag} {k : Kind} {l : LineAddr} {d : Option WriteData} {x : Slice} {r : Record} {w : WayIdx}

/-- What a record that awaits nobody becomes when it probes one agent (R40, R68). -/
def Record.probing (env : Env) (b : Agent) (role : Role) (k : ProbeKind) (r : Record) : Record :=
  { r with waits := [⟨b, role, k, .awaitingReply⟩], deadline := .running (env.now + env.timeout) }

theorem Slice.probeAgent_probing {p : ProbeKind} {role : Role} (h : x.fenced.getLsbD b = false) (hr : r.Idle) (hwaits : r.waits = []) :
    (x.withRecord i r).probeAgent env i false p role b =
      (x.sends b (.probe ⟨p, handleOf env.sid i, r.line⟩)).withRecord i (r.probing env b role p) := by
  have hlive : (r.addWaits false [⟨b, role, p, .awaitingReply⟩]).awaits = true := Record.awaits_addWaits ⟨_, List.mem_singleton_self _, rfl⟩
  have hstopped : (r.addWaits false [⟨b, role, p, .awaitingReply⟩]).deadline = .stopped := hr.2
  have hwaiting : (r.addWaits false [⟨b, role, p, .awaitingReply⟩]).fixDeadline env = r.probing env b role p := by
    rw [Record.fixDeadline_eq, hlive, hstopped]
    simp only [Record.addWaits, Record.setWaits, Record.waitsOn, hwaits]
    rfl
  rw [Slice.probeAgent_withRecord p role h, hwaiting]
  rfl

theorem Record.replan_of_fetchShared (hkind : r.kind = .fetchShared) (horigin : r.originator = .agent n tag) :
    r.replan = { r with plan := solePlan r.exclusive n } := by
  simp only [Record.replan, hkind, horigin]

theorem Slice.startPromote_of_owned (h : x.entryOf l = some (w, .owned b)) (v : WayIdx) (c : AgentSet) (hc : x.entryOf l = some (v, .shared c)) :
    c.getLsbD n = false := by
  rw [h] at hc
  cases hc

end

/-- Settles O25: the owner is probed, or where it is fenced settled as lost at once. -/
theorem aRequestForAnOwnedLineProbesTheOwner : Obligations.ARequestForAnOwnedLineProbesTheOwner := by
  unfold Obligations.ARequestForAnOwnedLineProbesTheOwner
  intro sid n b way k tag line wd ms s hpin hpath hstill hnormal x hfenced hdraining hline hqueue hfree hentry hb begun starts probes loses
  obtain ⟨i, picks, hi, hexec⟩ := exec_requestArrival_starts hpin hpath hnormal hfenced hdraining hline hqueue hfree
  let env : Env := s.env sid
  let y : Slice := { x with picks := picks }
  let started : Slice := Slice.startRecord env i ⟨.agent n tag, k, line, wd⟩ y
  have hy : Slice.Beside i x y := .picks i x picks
  have hbegun : begun.Idle := Waiter.record_idle (env := env) ⟨.agent n tag, k, line, wd⟩
  have hplan (p : Plan) : Record.Idle { begun with plan := p } := hbegun.congr rfl rfl rfl rfl rfl
  have hstarts (f : RecIdx → Slice → Slice) (h : started.goOn env false = { f i x with picks := picks }) : starts f :=
    ⟨i, picks, hi, hexec (fun x => { f i x with picks := picks }) h⟩
  have hgoOn {z : Slice} {r : Record} (hz : Slice.Beside i x z) (hstarted : started = z.withRecord i r) (hphase : r.phase = .gather) (hvictim : r.victim = none)
      (hgo : r.goesOn (z.noOps i) = false) : started.goOn env false = z.withRecord i r := Slice.goOn_started hz hstill hi hstarted hphase hvictim hgo
  have hshared (hk : k = .fetchShared) : started = (y.withRecord i { begun with plan := .grantShared (AgentSet.insert (AgentSet.single n) b) }).probeAgent
      env i false .demote .owner b :=
    (Slice.startRecord_of_fetchShared hk).trans (Slice.startFetchShared_of_owned (x := y) (r := begun) hentry hb hbegun)
  have howned (hk : k = .fetchOwned ∨ k = .promote) : started = (y.withRecord i { begun with plan := .grantOwned }).probeAgent env i false .revoke .owner b :=
    (Slice.startRecord_as_fetchOwned (hk.imp_right fun hk => ⟨hk, Slice.startPromote_of_owned (x := y) hentry⟩)).trans
      (Slice.startFetchOwned_of_owned (x := y) (r := begun) hentry hb hbegun)
  have hsnapshot (hk : k = .snapshot) : started = (y.withRecord i { begun with plan := .snapshotData }).probeAgent env i false .peek .owner b :=
    (Slice.startRecord_of_snapshot hk).trans (Slice.startSnapshot_of_owned (x := y) (r := begun) hentry hb hbegun)
  have hmasked {v : WriteData} (hk : k = .maskedWrite) (hwrite : wd = some v) (hmask : v.mask ≠ 0#64) :
      started = (y.withRecord i { begun with plan := .writeDone }).probeAgent env i false .revoke .owner b :=
    (Slice.startRecord_of_maskedWrite hk).trans (Slice.startMaskedWrite_of_owned (x := y) (r := begun) hwrite hmask hbegun hentry hb)
  refine ⟨fun hunfenced => ?_, fun hfencedb => ?_⟩
  · have hprobes {p : ProbeKind} {q : Plan} (h : started = (y.withRecord i { begun with plan := q }).probeAgent env i false p .owner b) : probes p q := by
      refine hstarts _ ((hgoOn (hy.sends _ _) (h.trans (Slice.probeAgent_probing (r := { begun with plan := q }) hunfenced (hplan q) rfl)) rfl rfl
        (Record.goesOn_of_awaitingReply rfl rfl ⟨_, List.mem_singleton_self _, rfl⟩ _)).trans rfl)
    exact ⟨fun hk => hprobes (hshared hk), fun hk => hprobes (howned hk), fun hk => hprobes (hsnapshot hk),
      fun v hk hwrite hmask => hprobes (hmasked hk hwrite hmask)⟩
  · let lost (p : ProbeKind) (q : Plan) : Record := Record.settledOn b .owner p .lost { begun with plan := q }
    have hloses {p : ProbeKind} {q q' : Plan} (hk : k ∈ [Kind.fetchShared, .fetchOwned, .promote, .snapshot])
        (h : started = (y.withRecord i { begun with plan := q }).probeAgent env i false p .owner b)
        (hreplan : (lost p q).replan = lost p q') : loses p q' := by
      have hlost := Slice.probeAgent_lost_reads (env := env) (i := i) (x := y) (r := { begun with plan := q }) (k := p) hfencedb rfl rfl rfl rfl hk
      have hrecord : ({ (lost p q).replan with memRead := true } : Record) = { lost p q' with memRead := true } :=
        congrArg (fun r : Record => { r with memRead := true }) hreplan
      have hstarted := (h.trans hlost).trans (congrArg (Slice.withRecord _ i) hrecord)
      refine hstarts _ ((hgoOn ((hy.orders _).orders _) hstarted rfl rfl (Record.goesOn_of_memRead rfl rfl hk rfl _)).trans ?_)
      exact congrArg (fun ops => Slice.withRecord { y with submission := ops } i { lost p q' with memRead := true }) (List.append_assoc _ _ _)
    have hkeeps {p : ProbeKind} {q : Plan} (hk : k ≠ .fetchShared) : (lost p q).replan = lost p q := by
      rw [Record.replan]
      split
      · next a t hkind _ => exact absurd hkind hk
      · rfl
    refine ⟨fun hk => hloses (by rw [hk]; decide) (hshared hk) ?_, fun hk => hloses ?_ (howned hk) (hkeeps ?_),
      fun hk => hloses (by rw [hk]; decide) (hsnapshot hk) (hkeeps (by rw [hk]; decide)), fun v hk hwrite hmask => hstarts _ ?_⟩
    · have hexclusive : (lost .demote (.grantShared (AgentSet.insert (AgentSet.single n) b))).exclusive = s.mgmt.exclusive := by
        refine (show _ = (decide (k = .fetchShared) && s.mgmt.exclusive) from rfl).trans ?_
        rw [decide_eq_true hk, Bool.true_and]
      exact (Record.replan_of_fetchShared hk rfl).trans (congrArg (fun e => lost .demote (solePlan e n)) hexclusive)
    · rcases hk with hk | hk
      · rw [hk]
        decide
      · rw [hk]
        decide
    · rcases hk with hk | hk
      · rw [hk]
        decide
      · rw [hk]
        decide
    · have hout : Slice.Beside i x (y.withWayOut (setOf line) way .empty) := hy.putSet fun t g => Slice.withWay_not_reserved hentry t g
      have hlost := Slice.probeAgent_lost_writes (env := env) (i := i) (x := y) (r := { begun with plan := .writeDone }) (k := .revoke) hfencedb rfl rfl rfl rfl rfl hk hwrite
        hentry hline
      refine (hgoOn (hout.ordersLost line v) ((hmasked hk hwrite hmask).trans hlost) rfl rfl ?_).trans ?_
      · rw [Slice.noOps_ordersLost]
        exact Record.goesOn_of_ordered rfl rfl (by rw [show Record.kind _ = k from rfl, hk]; decide) rfl
      · exact congrArg (Slice.withRecord · i { lost .revoke .writeDone with ordered := true }) (Slice.ordersLost_eq _ _ _)

end Sys2Proof.Machine

/-!
Scrub (R32, R205, R206): its start, its write, and its end.
-/

namespace Sys2Proof.Machine

section
variable {env : Env} {i : RecIdx} {x : Slice} {r : Record} {w : WayIdx} {e : Entry} {wd : WriteData}

/-- A Scrub whose waits are settled orders its write, and frees the entry. -/
theorem Slice.progress_scrub_orders (hphase : x.records[i].phase = .gather) (hfin : x.records[i].finished = false) (hkind : x.records[i].kind = .scrub)
    (hwrite : x.records[i].write = some wd) (hawaits : x.records[i].awaits = false) (hordered : x.records[i].ordered = false) :
    x.progress env i = some (((x.orders (.fullWrite x.records[i].line wd.data) (.record i)).freeEntry env.sid x.records[i].line).updRec env i
      fun r => { r with ordered := true }) := by
  rw [Slice.progress_scrub hphase hfin hkind, hawaits, hordered, Slice.orderWrite_of_scrub hwrite hkind]
  rfl

/-- The same at a record in its slice, whose line has no entry. -/
theorem Slice.progress_scrub_absent (hphase : r.phase = .gather) (hfin : r.finished = false) (hkind : r.kind = .scrub) (hwrite : r.write = some wd)
    (hordered : r.ordered = false) (hidle : r.Idle) (hentry : x.entryOf r.line = none) : (x.withRecord i r).progress env i =
      some ((x.orders (.fullWrite r.line wd.data) (.record i)).withRecord i { r with ordered := true }) := by
  have hself : (x.withRecord i r).records[i] = r := Slice.withRecord_self x i r
  have hwritten : Record.Idle { r with ordered := true } := hidle.congr rfl rfl rfl rfl rfl
  rw [Slice.progress_scrub_orders (wd := wd) (by rw [hself]; exact hphase) (by rw [hself]; exact hfin) (by rw [hself]; exact hkind)
    (by rw [hself]; exact hwrite) (by rw [hself]; exact hidle.1) (by rw [hself]; exact hordered), hself]
  have hnone : Slice.entryOf ((x.withRecord i r).orders (.fullWrite r.line wd.data) (.record i)) r.line = none := hentry
  have hplace : (x.withRecord i r).orders (.fullWrite r.line wd.data) (.record i) = (x.orders (.fullWrite r.line wd.data) (.record i)).withRecord i r := rfl
  rw [Slice.freeEntry_of_none hnone, hplace, Slice.updRec_withRecord, hwritten.fixDeadline]

/-- The same where the record's own line has an entry: it is freed, and its way is EMPTY (R19). -/
theorem Slice.progress_scrub_entry (hphase : r.phase = .gather) (hfin : r.finished = false) (hkind : r.kind = .scrub) (hwrite : r.write = some wd)
    (hordered : r.ordered = false) (hidle : r.Idle) (hvictim : r.victim = none) (hentry : x.entryOf r.line = some (w, e))
    (hholder : (x.withRecord i r).holder r.line = some i) : (x.withRecord i r).progress env i =
      some (((x.orders (.fullWrite r.line wd.data) (.record i)).withWayOut (setOf r.line) w .empty).withRecord i { r with ordered := true }) := by
  have hself : (x.withRecord i r).records[i] = r := Slice.withRecord_self x i r
  have hwritten : Record.Idle { r with ordered := true } := hidle.congr rfl rfl rfl rfl rfl
  rw [Slice.progress_scrub_orders (wd := wd) (by rw [hself]; exact hphase) (by rw [hself]; exact hfin) (by rw [hself]; exact hkind)
    (by rw [hself]; exact hwrite) (by rw [hself]; exact hidle.1) (by rw [hself]; exact hordered), hself]
  have hsome : Slice.entryOf ((x.withRecord i r).orders (.fullWrite r.line wd.data) (.record i)) r.line = some (w, e) := hentry
  have hempty : Slice.freedWay ((x.withRecord i r).orders (.fullWrite r.line wd.data) (.record i)) env.sid r.line = .empty := by
    refine (Slice.freedWay_of_request (x := x.withRecord i r) hholder (by rw [hself, hvictim]; exact Option.some_ne_none _ ∘ Eq.symm)).trans ?_
    rw [hself, hkind]
    rfl
  have hplace : ((x.withRecord i r).orders (.fullWrite r.line wd.data) (.record i)).withWayOut (setOf r.line) w .empty =
      ((x.orders (.fullWrite r.line wd.data) (.record i)).withWayOut (setOf r.line) w .empty).withRecord i r := rfl
  rw [Slice.freeEntry_of_entry hsome, hempty, hplace, Slice.updRec_withRecord, hwritten.fixDeadline]

/-- A Clean reply to a Scrub settles its wait, and nothing more (R206). -/
theorem Slice.takeClean_of_scrub {n : Agent} {role : Role} {probe : ProbeKind} (hkind : x.records[i].kind = .scrub) :
    x.takeClean env n i false ⟨n, role, probe, .awaitingReply⟩ = some (x.moveWaitOf env i false n (.settled .clean)) := by
  cases role with
  | sharer => rfl
  | owner =>
    refine congrArg some (Slice.cleanSource_eq.trans (if_neg fun h => ?_))
    obtain ⟨hmem, -⟩ := h
    rw [(Slice.moveWaitOf_kind false n _).1, hkind] at hmem
    revert hmem
    decide

end

section
variable {sid : SliceId} {l : LineAddr} {ms : List CommandMsg} {s : State}

theorem exec_scrubArrival (hpin : s.resetPin = .released) (hpath : s.mgmt.cmdPath[sid] = .scrub l :: ms) :
    exec (.scrubArrival sid) s = .next ((s.afterCommand sid ms).updSlice sid fun x =>
      Slice.goOn (s.env sid) false ((x.startOrQueue (s.env sid) (scrubWaiter l)).getD { x with toEngine := x.toEngine ++ [⟨.noResource, none⟩] })) :=
  whileReleased_takeCommand
    (g := fun env x => (x.startOrQueue env (scrubWaiter l)).getD { x with toEngine := x.toEngine ++ [⟨.noResource, none⟩] }) hpin hpath rfl

end

/-- Settles O42: a Scrub's steps, its last reply, and its arrival. -/
theorem aScrubArrives : Obligations.AScrubArrives := by
  unfold Obligations.AScrubArrives
  refine ⟨?_, ?_, ?_⟩
  · intro env i w x r hphase hfin hkind hwrite
    have hprogress := Slice.progress_scrub (env := env) (x := x) hphase hfin hkind
    refine ⟨fun hawaits => ?_, fun hawaits hordered => Slice.progress_scrub_orders hphase hfin hkind hwrite hawaits hordered,
      fun hawaits hordered hops => ?_, fun hawaits hordered hops => ?_⟩
    · exact hprogress.trans (if_pos hawaits)
    · rw [hprogress, show x.records[i].awaits = false from hawaits, show x.records[i].ordered = true from hordered, hops]
      rfl
    · rw [hprogress, show x.records[i].awaits = false from hawaits, show x.records[i].ordered = true from hordered, hops]
      rfl
  · intro sid n i line role wd w e ms s hpin hpath x r hstill hfenced hphase hfin hkind hordered hwrite hline hvictim hvictimWaits hwaits hholder hentry
    let settled : Record := r.settledOn n role .revoke .clean
    have hidle : settled.Idle := Record.settledOn_idle hphase hvictimWaits
    have hmoved : x.moveWaitOf (s.env sid) i false n (.settled .clean) = x.withRecord i settled := by
      refine Slice.moveWaitOf_only .clean hphase hwaits fun q hq => ?_
      rw [show x.records[i].waitsOn (!false) = [] from hvictimWaits] at hq
      cases hq
    have harrives : x.replyArrives (s.env sid) n (handleOf sid i) line .clean = x.withRecord i settled := by
      refine (Slice.replyArrives_of (v := false) (q := ⟨n, role, .revoke, .awaitingReply⟩) hfenced (Slice.replyWait_of hphase hline ?_) ?_).trans hmoved
      · rw [show x.records[i].waitsOn false = x.records[i].waits from rfl, show x.records[i].waits = _ from hwaits]
        simp
      · exact Slice.takeClean_of_scrub hkind
    refine (whileReleased_takeFromLink (g := fun env => Slice.replyArrives env n (handleOf sid i) line .clean) hpin hpath rfl).trans
      (next_updSlice_congr ((congrArg (Slice.goOn (s.env sid) false) harrives).trans ?_))
    subst hline
    have hown : (x.withRecord i settled).holder settled.line = some i := (Slice.holder_set (x := x) (i := i) (r := settled) rfl rfl rfl).trans hholder
    let op : MemOp := .fullWrite settled.line wd.data
    let after : Slice := ((x.orders op (.record i)).withWayOut (setOf settled.line) w .empty).withRecord i { settled with ordered := true }
    have hgo : (x.withRecord i settled).progress (s.env sid) i = some after :=
      Slice.progress_scrub_entry hphase hfin hkind hwrite hordered hidle hvictim hentry hown
    have hsame : Slice.SameBut i x (x.withRecord i settled) := .of_set_same rfl rfl
    have hsame' : Slice.SameBut i x after := .of_set rfl ⟨[⟨op, .record i⟩], rfl, fun o ho => by rw [List.mem_singleton.mp ho]⟩
    have hafter : after.records[i] = { settled with ordered := true } := Slice.withRecord_self _ _ _
    have hwriting : settled.kind ∈ [Kind.maskedWrite, .scrub] := by
      rw [show settled.kind = .scrub from hkind]
      decide
    have hbusy : x.records[i].phase ≠ .free := by rw [show x.records[i].phase = .gather from hphase]; decide
    refine Slice.goOn_of_progress (hsame.findEviction hstill (by rw [Slice.withRecord_self]; exact Record.evictionDone_of_no_victim hvictim))
      (hsame.progressAny hstill hgo) ?_
    refine hsame'.still hstill hbusy (by rw [hafter]; exact hbusy) (by rw [hafter]; rfl) (by rw [hafter]; rfl) (fun h => ?_) (by rw [hafter]; rfl)
      (by rw [hafter]; exact Record.evictionDone_of_no_victim hvictim) ?_ (fun p v t g hv => ?_) (Slice.noEngineOps_of_append rfl) rfl rfl rfl
    · rw [hafter] at h
      exact h
    · rw [hafter, show after.noOps i = false from Slice.noOps_orders x op i]
      exact Record.goesOn_of_ordered hphase hfin hwriting rfl
    · exact .inl ⟨t, g, Slice.KeepsReservations.of_ways (fun t g => Slice.withWay_not_reserved hentry t g) _ p v t g hv⟩
  · intro sid l ms s hpin hpath hstill x zeros
    have hexec := exec_scrubArrival hpin hpath
    let env : Env := s.env sid
    let begun : Record := Waiter.record env (scrubWaiter l)
    have hbegun : begun.Idle := Waiter.record_idle _
    have hstarts (hline : ∀ i : RecIdx, ¬x.records[i].holds l) (hqueue : ∀ v ∈ x.waitQueue, v.line ≠ l) (hfree : ∃ i : RecIdx, x.records[i].phase = .free) :
        ∃ (i : RecIdx) (picks : Nat), x.records[i].phase = .free ∧ ∀ f : Slice → Slice,
          ((Slice.withRecord { x with picks := picks } i begun).startScrub env i).goOn env false = f x →
          exec (.scrubArrival sid) s = .next ((s.afterCommand sid ms).updSlice sid f) := by
      obtain ⟨i, picks, hi, hstart⟩ := Slice.startOrQueue_starts (env := env) (w := scrubWaiter l) hline hqueue hfree
      refine ⟨i, picks, hi, fun f hf => hexec.trans (next_updSlice_congr (Eq.trans (congrArg (Slice.goOn env false) ?_) hf))⟩
      exact (congrArg (Option.getD · _) hstart).trans rfl
    refine ⟨fun hline hqueue hfree hentry => ?_, fun w e a hline hqueue hfree hentry hagents hne hunfenced => ?_, fun hwaits => ⟨fun hroom => ?_, fun hfull => ?_⟩⟩
    · obtain ⟨i, picks, hi, hstart⟩ := hstarts hline hqueue hfree
      refine ⟨i, picks, hi, hstart (fun x => { x.orders (.fullWrite l zeros.data) (.record i) with
        picks := picks, records := x.records.set i { begun with ordered := true } }) ?_⟩
      have hy : Slice.Beside i x { x with picks := picks } := .picks i x picks
      have hgo := Slice.progress_scrub_absent (env := env) (i := i) (x := { x with picks := picks }) (r := begun) rfl rfl rfl rfl rfl hbegun hentry
      refine (congrArg (Slice.goOn env false) (Slice.startScrub_of_none (x := { x with picks := picks }) (r := begun) hentry)).trans
        ((Slice.goOn_started_progress hy (hy.orders _) hstill hi rfl rfl (by exact (by decide : Phase.gather ≠ .free)) hgo ?_).trans rfl)
      rw [Slice.noOps_orders]
      rfl
    · obtain ⟨i, picks, hi, hstart⟩ := hstarts hline hqueue hfree
      have hnamed : e.agents = a := by
        rcases hagents with rfl | ⟨b, rfl, rfl⟩
        · rfl
        · rfl
      refine ⟨i, picks, hi, hstart (fun x => { x.probes a ⟨.revoke, handleOf sid i, l⟩ with
        picks := picks
        records := x.records.set i { begun with waits := waitsOnAgents a e.role .revoke, deadline := env.deadlineFor a } }) ?_⟩
      have hy : Slice.Beside i x { x with picks := picks } := .picks i x picks
      have hrevokes := Slice.revokeAll_withRecord (env := env) (i := i) (v := false) (x := { x with picks := picks }) (r := begun) e a hunfenced hbegun.1 hbegun.2
      have hstarted := (Slice.startScrub_of_entry (env := env) (i := i) (x := { x with picks := picks }) (r := begun) hentry).trans
        ((congrArg (fun a => Slice.revokeAll env i false e a _) hnamed).trans hrevokes)
      exact Slice.goOn_started (hy.probes _ _) hstill hi hstarted rfl rfl
        (Record.goesOn_of_awaitingReply rfl rfl (exists_waitsOnAgents hne e.role .revoke) _)
    · have hqueued : (x.startOrQueue env (scrubWaiter l)).getD { x with toEngine := x.toEngine ++ [⟨.noResource, none⟩] } =
          { x with waitQueue := x.waitQueue ++ [scrubWaiter l] } := by
        rw [Slice.startOrQueue_of_waits (Slice.waits_of hwaits), if_pos hroom, Option.getD_some]
      exact hexec.trans (next_updSlice_congr ((congrArg (Slice.goOn env false) hqueued).trans
        (Slice.goOn_of_still _ _ _ (hstill.queue (w := scrubWaiter l) (Slice.waits_of hwaits)))))
    · have hrefused : (x.startOrQueue env (scrubWaiter l)).getD { x with toEngine := x.toEngine ++ [⟨.noResource, none⟩] } =
          { x with toEngine := x.toEngine ++ [⟨.noResource, none⟩] } := by
        rw [Slice.startOrQueue_of_waits (Slice.waits_of hwaits), if_neg (Nat.not_lt.mpr hfull), Option.getD_none]
      exact hexec.trans (next_updSlice_congr ((congrArg (Slice.goOn env false) hrefused).trans
        (Slice.goOn_of_still _ _ _ (Slice.still_of_same env x _ hstill rfl rfl rfl rfl rfl rfl))))

end Sys2Proof.Machine

/-!
A full set: the victim, its eviction, and the arbiter that the eviction wakes (R38, R39, R111, R112, R114).
-/

namespace Sys2Proof.Machine

section
variable {env : Env} {i : RecIdx} {x : Slice} {l : LineAddr} {w : WayIdx} {e : Entry} {p : Nat}

theorem Slice.withRecord_eq_self (x : Slice) (i : RecIdx) : x.withRecord i x.records[i] = x := by
  have hset : x.records.set i x.records[i] = x.records := Vector.set_getElem_self _
  rw [Slice.withRecord, hset]

theorem DirSet.findEmpty_eq_none {d : DirSet} (h : ∀ w : WayIdx, d.ways[w] ≠ .empty) : d.findEmpty = none :=
  List.find?_eq_none.mpr fun w _ => by
    rw [decide_eq_true_eq]
    exact h w

/-! ## The victim (R111) -/

/-- What a way offers as a victim. -/
def Slice.victimAt (sid : SliceId) (p : Nat) (x : Slice) (w : WayIdx) : Option (LineAddr × Entry) :=
  match (x.getSet p).ways[w] with
  | .occupied t e => if x.held (lineOf sid p t) then none else some (lineOf sid p t, e)
  | _ => none

theorem Slice.chooseVictim_eq (sid : SliceId) (x : Slice) : x.chooseVictim sid p = (x.getSet p).recency.reverse.findSome? (x.victimAt sid p) := rfl

theorem Slice.victimAt_eq_none {sid : SliceId} (h : ∀ t e, (x.getSet p).ways[w] = .occupied t e → x.held (lineOf sid p t) = true) :
    x.victimAt sid p w = none := by
  rw [Slice.victimAt]
  split
  · next t e hway => rw [if_pos (h t e hway)]
  · rfl

theorem Slice.victimAt_of_unheld {sid : SliceId} {t : BitVec 15} (hway : (x.getSet p).ways[w] = .occupied t e) (hheld : x.held (lineOf sid p t) = false) :
    x.victimAt sid p w = some (lineOf sid p t, e) := by
  rw [Slice.victimAt, hway]
  exact if_neg (by rw [hheld]; decide)

/-- The least recently granted way whose line is not held. -/
theorem Slice.chooseVictim_of_first {sid : SliceId} {front back : List WayIdx} {t : BitVec 15} (hrecency : (x.getSet p).recency = front ++ w :: back)
    (hway : (x.getSet p).ways[w] = .occupied t e) (hheld : x.held (lineOf sid p t) = false)
    (hback : ∀ v ∈ back, ∀ t' e', (x.getSet p).ways[v] = .occupied t' e' → x.held (lineOf sid p t') = true) :
    x.chooseVictim sid p = some (lineOf sid p t, e) := by
  have hnone : back.reverse.findSome? (x.victimAt sid p) = none :=
    List.findSome?_eq_none_iff.mpr fun v hv => Slice.victimAt_eq_none (hback v (List.mem_reverse.mp hv))
  rw [Slice.chooseVictim_eq, hrecency, List.reverse_append, List.reverse_cons, List.append_assoc, List.findSome?_append, hnone, Option.none_or,
    List.singleton_append, List.findSome?_cons_of_isSome (by rw [Slice.victimAt_of_unheld hway hheld]; rfl)]
  exact Slice.victimAt_of_unheld hway hheld

theorem Slice.chooseVictim_eq_none {sid : SliceId}
    (h : ∀ v ∈ (x.getSet p).recency, ∀ t' e', (x.getSet p).ways[v] = .occupied t' e' → x.held (lineOf sid p t') = true) : x.chooseVictim sid p = none := by
  rw [Slice.chooseVictim_eq]
  exact List.findSome?_eq_none_iff.mpr fun v hv => Slice.victimAt_eq_none (h v (List.mem_reverse.mp hv))

theorem Slice.needWay_of_victim {v : LineAddr} (plan : Plan) (hfull : ∀ w : WayIdx, (x.getSet (setOf x.records[i].line)).ways[w] ≠ .empty)
    (hvictim : x.chooseVictim env.sid (setOf x.records[i].line) = some (v, e)) : x.needWay env i plan =
      ((x.updRec env i fun r => { r with plan := plan, victim := some v }).revokeAll env i true e e.agents).orderRead env i := by
  simp only [Slice.needWay, DirSet.findEmpty_eq_none hfull, hvictim]

theorem Slice.needWay_of_none (plan : Plan) (hfull : ∀ w : WayIdx, (x.getSet (setOf x.records[i].line)).ways[w] ≠ .empty)
    (hvictim : x.chooseVictim env.sid (setOf x.records[i].line) = none) : x.needWay env i plan = x.answerRetry env i .busy := by
  simp only [Slice.needWay, DirSet.findEmpty_eq_none hfull, hvictim]

theorem Record.idle_of_no_waits {r : Record} (hphase : r.phase = .gather) (hwaits : r.waits = []) (hvictimWaits : r.victimWaits = []) (hdeadline : r.deadline = .stopped) :
    r.Idle := by
  refine ⟨Record.awaits_of_settled hphase fun q hq => ?_, hdeadline⟩
  rw [hwaits, hvictimWaits, List.append_nil] at hq
  cases hq

/-! ## The eviction (R114) -/

theorem Record.evictionDone_eq {r : Record} {v : LineAddr} (hphase : r.phase ≠ .free) (hvictim : r.victim = some v) :
    r.evictionDone = !r.victimWaits.any Wait.live := by
  rw [Record.evictionDone, hvictim, bne_iff_ne.mpr hphase]
  rfl

theorem Slice.completeEviction_of_entry {v : LineAddr} (hvictim : x.records[i].victim = some v) (hentry : x.entryOf v = some (w, e))
    (hholder : x.holder v = some i) : x.completeEviction env i =
      (x.withWayOut (setOf v) w (.reserved (tagOf x.records[i].line) (handleOf env.sid i))).updRec env i fun r => { r with victim := none, victimWaits := [] } := by
  have hline : x.records[i].lineOn true = v := by
    rw [Record.lineOn, hvictim]
    rfl
  rw [Slice.completeEviction, hline, Slice.freeEntry_of_entry hentry, Slice.freedWay_of_victim hholder hvictim]

/-! ## The arbiter (R38) -/

theorem Slice.arbitrate_of_eligible {v : Waiter} {pre post : List Waiter} (hqueue : x.waitQueue = pre ++ v :: post) (hv : x.held v.line = false)
    (hpre : ∀ u ∈ pre, x.held u.line = true) (hfree : ∃ i : RecIdx, x.records[i].phase = .free) :
    ∃ (i : RecIdx) (picks : Nat), x.records[i].phase = .free
      ∧ x.arbitrate env = some (Slice.startRecord env i v { x with waitQueue := pre ++ post, picks := picks }) := by
  have htake : takeFirst x.eligible x.waitQueue = some (v, pre ++ post) := by
    rw [hqueue]
    exact takeFirst_append_cons post (fun u hu => by rw [Slice.eligible, hpre u hu]; rfl) (by rw [Slice.eligible, hv]; rfl)
  cases hfound : x.takeFree env.sid with
  | none =>
    obtain ⟨i, hi⟩ := hfree
    exact absurd hi ((Slice.takeFree_none x env.sid).mp hfound i)
  | some found =>
    obtain ⟨i, y⟩ := found
    obtain ⟨hi, picks, rfl⟩ := Slice.takeFree_some hfound
    refine ⟨i, picks, hi, ?_⟩
    simp only [Slice.arbitrate, htake, hfound]
    rfl

theorem Slice.arbitrate_eq_none (h : (∀ u ∈ x.waitQueue, x.held u.line = true) ∨ ∀ i : RecIdx, x.records[i].phase ≠ .free) : x.arbitrate env = none := by
  rcases h with hheld | hbusy
  · have htake : takeFirst x.eligible x.waitQueue = none := takeFirst_eq_none fun u hu => by rw [Slice.eligible, hheld u hu]; rfl
    simp only [Slice.arbitrate, htake]
  · cases htake : takeFirst x.eligible x.waitQueue with
    | none => simp only [Slice.arbitrate, htake]
    | some found =>
      simp only [Slice.arbitrate, htake, (Slice.takeFree_none x env.sid).mpr hbusy]
      rfl

end

/-- Settles O27: the victim, the completed eviction, the arbiter, and all of them in one event. -/
theorem aFullSetGivesUpAVictim : Obligations.AFullSetGivesUpAVictim := by
  unfold Obligations.AFullSetGivesUpAVictim
  refine ⟨?_, ?_, fun env x => ⟨fun pre v post hqueue hv hpre hfree => Slice.arbitrate_of_eligible hqueue hv hpre hfree, Slice.arbitrate_eq_none⟩, ?_⟩
  · intro env i plan x r p hphase hfin hwaits hvictim hvictimWaits hdeadline hfull
    have hidle : r.Idle := Record.idle_of_no_waits hphase hwaits hvictimWaits hdeadline
    refine ⟨fun front back w tag e a hrecency hway hheld hback hagents hunfenced => ?_, fun n t horigin hheld => ?_⟩
    · have hnamed : e.agents = a := by
        rcases hagents with rfl | ⟨b, rfl, rfl⟩
        · rfl
        · rfl
      let chosen : Record := { r with plan := plan, victim := some (lineOf env.sid p tag) }
      have hchosen : chosen.Idle := hidle.congr rfl rfl rfl rfl rfl
      have hupd : x.updRec env i (fun r => { r with plan := plan, victim := some (lineOf env.sid p tag) }) = x.withRecord i chosen :=
        Slice.updRec_eq hchosen.fixDeadline
      rw [Slice.needWay_of_victim plan hfull (Slice.chooseVictim_of_first hrecency hway hheld hback), hnamed]
      refine (congrArg (fun y => Slice.orderRead env i (Slice.revokeAll env i true e a y)) hupd).trans
        ((Slice.revokeAll_orderRead (v := true) (r := chosen) e a hunfenced hchosen).trans ?_)
      have hnone : chosen.victimWaits ++ waitsOnAgents a e.role .revoke = waitsOnAgents a e.role .revoke := by
        rw [show chosen.victimWaits = [] from hvictimWaits, List.nil_append]
      exact congrArg (fun ws => Slice.withRecord
        ((x.probes a ⟨.revoke, handleOf env.sid i, lineOf env.sid p tag⟩).orders (.read r.line (handleOf env.sid i)) (.record i)) i
        { chosen with victimWaits := ws, memRead := true, deadline := env.deadlineFor a }) hnone
    · have hfinished : Record.fixDeadline env { r with finished := true } = { r with finished := true } := by
        refine Record.fixDeadline_of_idle (Record.awaits_of_settled hphase fun q hq => ?_) hdeadline
        rw [show Record.waits _ = r.waits from rfl, show Record.victimWaits _ = r.victimWaits from rfl, hwaits, hvictimWaits] at hq
        cases hq
      rw [Slice.needWay_of_none plan hfull (Slice.chooseVictim_eq_none hheld)]
      have hself := Slice.answerRetry_withRecord (env := env) (i := i) (x := x) horigin .busy
      rw [Slice.withRecord_eq_self, hfinished] at hself
      exact hself
  · intro env i v x r hphase hvictim
    have hdone := Record.evictionDone_eq hphase hvictim
    refine ⟨fun ⟨q, hq, hlive⟩ => ?_, fun hsettled => ⟨?_, fun w e hentry hholder => Slice.completeEviction_of_entry hvictim hentry hholder, fun hentry => ?_⟩⟩
    · rw [hdone, List.any_eq_true.mpr ⟨q, hq, hlive⟩]
      rfl
    · rw [hdone, List.any_eq_false.mpr fun q hq => by rw [hsettled q hq]; decide]
      rfl
    · have hline : x.records[i].lineOn true = v := by
        rw [Record.lineOn, show x.records[i].victim = some v from hvictim]
        rfl
      rw [Slice.completeEviction, hline, Slice.freeEntry_of_none hentry]
  · intro sid n i v role w e ms s hpin hpath x r hstill hfenced hqueue hjobs hvisit hpending hphase hkind hfin hwaits hread hne hvictim hvictimWaits hholder hentry
    let settled : Record := { r with victimWaits := [⟨n, role, .revoke, .settled .clean⟩], deadline := .stopped }
    let evicted : Record := { r with victim := none, victimWaits := [], deadline := .stopped }
    have hmoved : x.moveWaitOf (s.env sid) i true n (.settled .clean) = x.withRecord i settled := by
      refine Slice.moveWaitOf_only .clean hphase hvictimWaits fun q hq => ?_
      rw [show x.records[i].waitsOn (!true) = [] from hwaits] at hq
      cases hq
    have harrives : x.replyArrives (s.env sid) n (handleOf sid i) v .clean = x.withRecord i settled := by
      refine (Slice.replyArrives_of (v := true) (q := ⟨n, role, .revoke, .awaitingReply⟩) hfenced (Slice.replyWait_of hphase ⟨hne, hvictim⟩ ?_) ?_).trans hmoved
      · rw [show x.records[i].waitsOn true = x.records[i].victimWaits from rfl, show x.records[i].victimWaits = _ from hvictimWaits]
        simp
      · cases role <;> rfl
    have hidle : evicted.Idle := Record.idle_of_no_waits hphase hwaits rfl rfl
    let after : Slice := (x.withWayOut (setOf v) w (.reserved (tagOf r.line) (handleOf sid i))).withRecord i evicted
    have hown : (x.withRecord i settled).holder v = some i := (Slice.holder_set (x := x) (i := i) (r := settled) rfl rfl rfl).trans hholder
    have hself : (x.withRecord i settled).records[i] = settled := Slice.withRecord_self x i settled
    have hcomplete : (x.withRecord i settled).completeEviction (s.env sid) i = after := by
      have hplace : (x.withRecord i settled).withWayOut (setOf v) w (.reserved (tagOf settled.line) (handleOf sid i)) =
          (x.withWayOut (setOf v) w (.reserved (tagOf r.line) (handleOf sid i))).withRecord i settled := rfl
      have hvictim' : (x.withRecord i settled).records[i].victim = some v := by
        rw [hself]
        exact hvictim
      have hentry' : (x.withRecord i settled).entryOf v = some (w, e) := hentry
      rw [Slice.completeEviction_of_entry (env := s.env sid) hvictim' hentry' hown, hself]
      refine (congrArg (Slice.updRec (s.env sid) i _) hplace).trans ((Slice.updRec_withRecord _).trans ?_)
      exact congrArg (Slice.withRecord _ i) hidle.fixDeadline
    have hsame : Slice.SameBut i x (x.withRecord i settled) := .of_set_same rfl rfl
    have hsame' : Slice.SameBut i x after := .of_set_same rfl rfl
    have hafter : after.records[i] = evicted := Slice.withRecord_self _ _ _
    have hfound : (x.withRecord i settled).findEviction = some i := by
      refine find?_of_first ?_ fun j hj => ?_
      · rw [hself, Record.evictionDone_eq (by rw [show settled.phase = .gather from hphase]; decide) (show settled.victim = some v from hvictim)]
        rfl
      · rw [hsame.records j (Fin.ne_of_lt hj)]
        exact hstill.evictionDone j
    have hreading : r.kind ∈ [Kind.fetchShared, .fetchOwned, .promote, .snapshot] := by
      generalize r.kind = k at hkind
      fin_cases hkind <;> decide
    refine (whileReleased_takeFromLink (g := fun env => Slice.replyArrives env n (handleOf sid i) v .clean) hpin hpath rfl).trans
      (next_updSlice_congr ((congrArg (Slice.goOn (s.env sid) false) harrives).trans ((Slice.goOn_of_eviction hfound ?_).trans hcomplete)))
    rw [hcomplete]
    exact Slice.still_of_no_work (hsame'.evictionDone hstill (by rw [hafter]; exact Record.evictionDone_of_no_victim rfl))
      (hsame'.goesOn hstill (by rw [hafter]; exact Record.goesOn_of_memRead (r := evicted) hphase hfin hreading hread _)) hqueue hjobs hvisit hpending

end Sys2Proof.Machine

/-!
The sweep engine's conditions and acts, each said once (R117 to R125, R191), and the notices of the quiesce controller (R190 to R194).
-/

namespace Sys2Proof.Machine

/-! ## What the engine asks of its slice -/

section
variable {env : Env} {x y : Slice} {p : Nat} {l : LineAddr} {j : Job} {pre post : List Job}

theorem Slice.freeRecords_full (x : Slice) : x.freeRecords.length = 32 ↔ ∀ i : RecIdx, x.records[i].phase = .free := by
  have hlen : x.freeRecords.length = (List.finRange 32).length ↔ _ := List.length_filter_eq_length_iff
  rw [List.length_finRange] at hlen
  rw [hlen]
  exact ⟨fun h i => of_decide_eq_true (h i (List.mem_finRange i)), fun h i _ => decide_eq_true (h i)⟩

theorem Slice.atRest_iff (x : Slice) : x.atRest = true ↔ (∀ i : RecIdx, x.records[i].phase = .free) ∧ x.waitQueue = [] := by
  rw [Slice.atRest, Bool.and_eq_true, decide_eq_true_eq, Slice.freeRecords_full, List.isEmpty_iff]

theorem Slice.noEngineOps_iff (x : Slice) : x.noEngineOps = true ↔ ∀ o ∈ x.submission, o.owner ≠ .engine := by
  simp [Slice.noEngineOps]

/-- The record leaves set p settled (R120). -/
def Record.settles (p : Nat) (r : Record) : Bool :=
  r.phase = .free || (r.kind = .recall && r.thisVisit) || !(setOf r.line = p || (match r.victim with | some v => setOf v = p | none => false))

theorem Record.settles_iff (r : Record) : r.settles p = true ↔
    ∀ l, r.holds l → setOf l = p → r.kind = .recall ∧ r.thisVisit = true := by
  by_cases hphase : r.phase = .free
  · rw [Record.settles, decide_eq_true hphase]
    exact ⟨fun _ l hholds => absurd hphase hholds.1, fun _ => rfl⟩
  by_cases hrecall : r.kind = .recall ∧ r.thisVisit = true
  · refine ⟨fun _ _ _ _ => hrecall, fun _ => ?_⟩
    rw [Record.settles, decide_eq_true hrecall.1, hrecall.2, Bool.and_true, Bool.or_true, Bool.true_or]
  have hnot : (decide (r.kind = .recall) && r.thisVisit) = false := Bool.eq_false_iff.mpr fun h => hrecall (by simpa using h)
  rw [Record.settles, decide_eq_false hphase, hnot, Bool.or_self, Bool.false_or, Bool.not_eq_true', Bool.or_eq_false_iff, decide_eq_false_iff_not]
  constructor
  · rintro ⟨hline, hvictim⟩ l ⟨-, rfl | hv⟩ hl
    · exact absurd hl hline
    · rw [hv] at hvictim
      exact absurd hl (of_decide_eq_false hvictim)
  · refine fun h => ⟨fun hl => hrecall (h _ ⟨hphase, .inl rfl⟩ hl), ?_⟩
    cases hv : r.victim with
    | none => rfl
    | some v => exact decide_eq_false fun hl => hrecall (h v ⟨hphase, .inr hv⟩ hl)

/-- A set is settled where no way of it is RESERVED, and its held lines are held by recalls of this visit (R120). -/
theorem Slice.settledSet_iff (x : Slice) (p : Nat) : x.settledSet p = true ↔
    (∀ (w : WayIdx) (t : BitVec 15) (h : Handle), (x.getSet p).ways[w] ≠ .reserved t h)
      ∧ ∀ (i : RecIdx) (l : LineAddr), x.records[i].holds l → setOf l = p → x.records[i].kind = .recall ∧ x.records[i].thisVisit = true := by
  have hrecords : (List.finRange 32).all (fun i => x.records[i].settles p) = true ↔
      ∀ (i : RecIdx) (l : LineAddr), x.records[i].holds l → setOf l = p → x.records[i].kind = .recall ∧ x.records[i].thisVisit = true := by
    rw [List.all_eq_true]
    exact ⟨fun h i => (Record.settles_iff _).mp (h i (List.mem_finRange i)), fun h i _ => (Record.settles_iff _).mpr (h i)⟩
  refine Iff.trans (iff_of_eq (Bool.and_eq_true _ _)) (and_congr (List.all_eq_true.trans ⟨fun h w t g hway => ?_, fun h w _ => ?_⟩) hrecords)
  · have hw := h w (List.mem_finRange w)
    rw [hway] at hw
    cases hw
  · split
    · next t g hway => exact absurd hway (h w t g)
    · rfl

/-! ## The engine's acts, by what it finds -/

theorem Slice.completeJob_of (hjobs : x.engine.jobs = pre ++ j :: post) (hsets : j.setsLeft = 0) (hflight : j.inFlight = 0)
    (hpre : ∀ k ∈ pre, k.setsLeft ≠ 0 ∨ k.inFlight ≠ 0) : takeFirst (fun j => !j.walking && j.inFlight = 0) x.engine.jobs = some (j, pre ++ post) := by
  rw [hjobs]
  refine takeFirst_append_cons post (fun k hk => ?_) ?_
  · rcases hpre k hk with h | h
    · rw [Job.walking, decide_eq_true (Nat.pos_of_ne_zero h)]
      rfl
    · rw [decide_eq_false h, Bool.and_false]
  · rw [Job.walking, hsets, hflight]
    rfl

theorem Slice.completeJob_eq_none (h : ∀ j ∈ x.engine.jobs, j.setsLeft ≠ 0 ∨ j.inFlight ≠ 0) : x.completeJob = none := by
  have htake : takeFirst (fun j => !j.walking && decide (j.inFlight = 0)) x.engine.jobs = none := takeFirst_eq_none fun j hj => by
    rcases h j hj with h | h
    · rw [Job.walking, decide_eq_true (Nat.pos_of_ne_zero h)]
      rfl
    · rw [decide_eq_false h, Bool.and_false]
  simp only [Slice.completeJob, htake]

theorem Slice.engineAct_of_completeJob (h : x.completeJob = some y) : x.engineAct env = some y := by
  simp only [Slice.engineAct, h]

theorem Slice.engineAct_of_walkAct (hjobs : x.completeJob = none) (h : x.walkAct env = some y) : x.engineAct env = some y := by
  simp only [Slice.engineAct, hjobs, h]

theorem Slice.engineAct_of_quiesceJoin (hjobs : x.completeJob = none) (hwalk : x.walkAct env = none) : x.engineAct env = x.quiesceJoin := by
  simp only [Slice.engineAct, hjobs, hwalk]

theorem Slice.walkAct_of_settled (hvisit : x.engine.visit = .waitingAtSet) (h : x.settledSet x.engine.position = true) :
    x.walkAct env = some (x.applyJobs env.sid) := by
  simp only [Slice.walkAct, hvisit, h, if_true]

theorem Slice.walkAct_of_unsettled (hvisit : x.engine.visit = .waitingAtSet) (h : x.settledSet x.engine.position = false) : x.walkAct env = none := by
  simp only [Slice.walkAct, hvisit, h]
  rfl

theorem Slice.walkAct_of_examining (hvisit : x.engine.visit = .waitingForRecord) : x.walkAct env = x.examine env := by
  simp only [Slice.walkAct, hvisit]

theorem Slice.walkAct_of_leaving (hvisit : x.engine.visit = .leaving) : x.walkAct env = if x.noEngineOps then some x.leaveSet else none := by
  simp only [Slice.walkAct, hvisit]

theorem Slice.walkAct_of_idle (hvisit : x.engine.visit = .idle) : x.walkAct env = none := by
  simp only [Slice.walkAct, hvisit]

/-- The QUIESCE job joins where no record is in use and no waiter is left (R118, R191). -/
theorem Slice.quiesceJoin_of_rest {k : BitVec 8} (hpending : x.pendingQuiesce = some k) (h : x.atRest = true) :
    x.quiesceJoin = some (Slice.joinJob (.quiesce k) { x with pendingQuiesce := none }) := by
  simp only [Slice.quiesceJoin, hpending, h, if_true]

theorem Slice.quiesceJoin_of_work (h : x.atRest = false) : x.quiesceJoin = none := by
  rw [Slice.quiesceJoin]
  split
  · rfl
  · rw [if_neg (by rw [h]; decide)]

/-! ## The engine alone in its slice -/

/-- With every record FREE, only the engine can act. -/
theorem Slice.settle_of_free {k : Nat} (hfree : ∀ i : RecIdx, x.records[i].phase = .free) (hact : x.engineAct env = some y) :
    Slice.settle env true (k + 1) false x = Slice.settle env true k false y := by
  refine Slice.settle_of_engine ((Slice.findEviction_none x).mpr fun i => ?_) ((Slice.progressAny_none env x).mpr fun i => ?_) hact
  · rw [Record.evictionDone, hfree i]
    rfl
  · rw [Record.goesOn, hfree i]
    rfl

/-- The jobs marked as applied at the engine's settled set, and no line pending yet (R121, log 14). -/
def Slice.marked (x : Slice) : Slice :=
  { x with engine := { x.engine with
    jobs := x.engine.jobs.map fun j => { j with applied := j.applied || (0 < j.setsLeft && !j.late) }
    pendingLines := [] } }

/-- The engine after its ways are taken: it waits for records for its pending lines, or leaves (R121 to R123). -/
def Slice.waysTaken (x : Slice) : Slice :=
  { x with engine := { x.engine with visit := if x.engine.pendingLines = [] then .leaving else .waitingForRecord } }

theorem Slice.applyJobs_eq (sid : SliceId) (x : Slice) :
    x.applyJobs sid = ((List.finRange 8).foldl (Slice.applyAtWay sid x.engine.position) x.marked).waysTaken := by
  rw [Slice.applyJobs]
  generalize List.finRange 8 = ws
  rfl

/-- A set without OCCUPIED ways gives the engine nothing to do. -/
theorem Slice.foldl_applyAtWay_of_empty (sid : SliceId) (h : ∀ (w : WayIdx) t e, (x.getSet p).ways[w] ≠ .occupied t e) (ws : List WayIdx) :
    ws.foldl (Slice.applyAtWay sid p) x = x := by
  refine List.foldl_fixed' (fun w => ?_) ws
  rw [Slice.applyAtWay]
  split
  · next t e hway => exact absurd hway (h w t e)
  · rfl

end

section
variable {env : Env} {x : Slice} {k : BitVec 8} {p : Nat} {sid : SliceId} {s : State}

theorem Slice.engineAct_join (hpending : x.pendingQuiesce = some k) (hjobs : ∀ j ∈ x.engine.jobs, j.setsLeft ≠ 0 ∨ j.inFlight ≠ 0)
    (hwalk : x.walkAct env = none) (hfree : ∀ i : RecIdx, x.records[i].phase = .free) (hqueue : x.waitQueue = []) :
    x.engineAct env = some (Slice.joinJob (.quiesce k) { x with pendingQuiesce := none }) :=
  (Slice.engineAct_of_quiesceJoin (Slice.completeJob_eq_none hjobs) hwalk).trans (Slice.quiesceJoin_of_rest hpending ((Slice.atRest_iff x).mpr ⟨hfree, hqueue⟩))

/-- A slice with an empty directory and no work, its engine at position p. -/
structure Slice.Empty (x : Slice) : Prop where
  dir : x.dir = []
  records : ∀ i : RecIdx, x.records[i] = Record.free
  waitQueue : x.waitQueue = []
  submission : x.submission = []

theorem Slice.Empty.phase (h : x.Empty) (i : RecIdx) : x.records[i].phase = .free := by
  rw [h.records i]
  rfl

theorem Slice.Empty.getSet (h : x.Empty) (q : Nat) : x.getSet q = DirSet.empty := by
  rw [Slice.getSet, h.dir]
  rfl

theorem Slice.Empty.ways (h : x.Empty) (q : Nat) (w : WayIdx) : (x.getSet q).ways[w] = .empty := by
  rw [h.getSet q]
  exact Vector.getElem_replicate _

theorem Slice.Empty.settledSet (h : x.Empty) (q : Nat) : x.settledSet q = true := by
  refine (Slice.settledSet_iff x q).mpr ⟨fun w t g hway => ?_, fun i l hholds => absurd (h.phase i) hholds.1⟩
  rw [h.ways q w] at hway
  cases hway

/-- The engine with one job, in an empty slice. -/
def Slice.withEngine (e : SweepEngine) (x : Slice) : Slice := { x with engine := e }

theorem Slice.Empty.withEngine (h : x.Empty) (e : SweepEngine) : (x.withEngine e).Empty := ⟨h.dir, h.records, h.waitQueue, h.submission⟩

theorem Slice.Empty.applyJobs (h : x.Empty) (sid : SliceId) : (x.withEngine ⟨p, .waitingAtSet, [⟨.quiesce k, 2048, 0, false, false⟩], []⟩).applyJobs sid =
    x.withEngine ⟨p, .leaving, [⟨.quiesce k, 2048, 0, true, false⟩], []⟩ := by
  have hmarked : (x.withEngine ⟨p, .waitingAtSet, [⟨.quiesce k, 2048, 0, false, false⟩], []⟩).marked =
      x.withEngine ⟨p, .waitingAtSet, [⟨.quiesce k, 2048, 0, true, false⟩], []⟩ := rfl
  rw [Slice.applyJobs_eq, hmarked, Slice.foldl_applyAtWay_of_empty sid]
  · rfl
  · intro w t e hway
    have hempty : (x.getSet p).ways[w] = .occupied t e := hway
    rw [h.ways p w] at hempty
    cases hempty

theorem Slice.Empty.leaveSet (h : x.Empty) : (x.withEngine ⟨p, .leaving, [⟨.quiesce k, 2048, 0, true, false⟩], []⟩).leaveSet =
    x.withEngine ⟨(p + 1) % 2048, .travelling, [⟨.quiesce k, 2047, 0, false, false⟩], []⟩ := by
  have hrecords : x.records.map (fun r => { r with thisVisit := false }) = x.records := by
    refine Vector.ext fun i hi => ?_
    rw [Vector.getElem_map]
    have hfree : x.records[i] = Record.free := h.records ⟨i, hi⟩
    rw [hfree]
    rfl
  exact congrArg (fun rs => { x.withEngine ⟨(p + 1) % 2048, .travelling, [⟨.quiesce k, 2047, 0, false, false⟩], []⟩ with records := rs }) hrecords

/-- A pending quiesce sweep at an empty slice: the job joins, and the first set is visited, in one event. -/
theorem Slice.Empty.goOn_join (h : x.Empty) (hengine : x.engine = ⟨p, .idle, [], []⟩) : Slice.goOn env false { x with pendingQuiesce := some k } =
    { x with pendingQuiesce := none, engine := ⟨(p + 1) % 2048, .travelling, [⟨.quiesce k, 2047, 0, false, false⟩], []⟩ } := by
  let y : Slice := { x with pendingQuiesce := none }
  have hy : y.Empty := ⟨h.dir, h.records, h.waitQueue, h.submission⟩
  have hwalking (v : VisitState) (applied : Bool) (n : Nat) : (y.withEngine ⟨p, v, [⟨.quiesce k, n + 1, 0, applied, false⟩], []⟩).completeJob = none :=
    Slice.completeJob_eq_none fun j hj => by rw [List.mem_singleton.mp hj]; exact .inl (Nat.succ_ne_zero n)
  have hjoins : Slice.engineAct env { x with pendingQuiesce := some k } = some (y.withEngine ⟨p, .waitingAtSet, [⟨.quiesce k, 2048, 0, false, false⟩], []⟩) := by
    refine (Slice.engineAct_join (x := { x with pendingQuiesce := some k }) rfl (fun j hj => ?_) (Slice.walkAct_of_idle (by rw [hengine])) h.phase h.waitQueue).trans ?_
    · rw [hengine] at hj
      cases hj
    · refine congrArg some ?_
      simp only [Slice.joinJob, hengine]
      rfl
  have happlies : (y.withEngine ⟨p, .waitingAtSet, [⟨.quiesce k, 2048, 0, false, false⟩], []⟩).engineAct env =
      some (y.withEngine ⟨p, .leaving, [⟨.quiesce k, 2048, 0, true, false⟩], []⟩) :=
    Slice.engineAct_of_walkAct (hwalking _ _ 2047) ((Slice.walkAct_of_settled rfl (hy.settledSet p)).trans (congrArg some (hy.applyJobs env.sid)))
  have hleaves : (y.withEngine ⟨p, .leaving, [⟨.quiesce k, 2048, 0, true, false⟩], []⟩).engineAct env =
      some (y.withEngine ⟨(p + 1) % 2048, .travelling, [⟨.quiesce k, 2047, 0, false, false⟩], []⟩) := by
    refine Slice.engineAct_of_walkAct (hwalking _ _ 2047) ((Slice.walkAct_of_leaving rfl).trans ((if_pos ?_).trans (congrArg some hy.leaveSet)))
    exact (Slice.noEngineOps_iff _).mpr fun o ho => by rw [(hy.withEngine _).submission] at ho; cases ho
  have hstill : (y.withEngine ⟨(p + 1) % 2048, .travelling, [⟨.quiesce k, 2047, 0, false, false⟩], []⟩).still env := by
    have hz := hy.withEngine ⟨(p + 1) % 2048, .travelling, [⟨.quiesce k, 2047, 0, false, false⟩], []⟩
    refine (Slice.still_parts env _).mpr ⟨fun i => ?_, ?_, fun i => ?_, rfl⟩
    · rw [Record.evictionDone, hz.phase i]
      rfl
    · rw [Slice.arbiterActs, hz.waitQueue]
      rfl
    · rw [Record.goesOn, if_pos (hz.phase i)]
  obtain ⟨n, hn⟩ := Slice.goOn_eq env { x with pendingQuiesce := some k }
  rw [hn false, Slice.settle_of_free (x := { x with pendingQuiesce := some k }) h.phase hjoins, Slice.settle_of_free (hy.withEngine _).phase happlies,
    Slice.settle_of_free (hy.withEngine _).phase hleaves]
  exact Slice.settle_of_still env true false (n + 3) _ hstill

end

/-- Settles O41: the notices, the joining of the job, and the reports. -/
theorem quiesceNoticesAndReports : Obligations.QuiesceNoticesAndReports := by
  unfold Obligations.QuiesceNoticesAndReports
  refine ⟨?_, ?_, ?_, ?_⟩
  · intro sid ms s hpin env
    refine ⟨fun k hpath => ?_, fun hpath => ?_⟩
    · have hexec : exec (.sweepStartNotice sid) s = .next ((s.afterCommand sid ms).updSlice sid fun x =>
          Slice.goOn env false { x with pendingQuiesce := some k }) :=
        whileReleased_takeCommand (g := fun _ x => { x with pendingQuiesce := some k }) hpin hpath rfl
      refine ⟨hexec, fun hstill hbusy => hexec.trans (next_updSlice_congr (Slice.goOn_of_still _ _ _ ?_))⟩
      obtain ⟨i, hi⟩ := hbusy
      obtain ⟨hev, harbiter, hgo, hengine⟩ := (Slice.still_parts env _).mp hstill
      refine (Slice.still_parts env _).mpr ⟨hev, harbiter, hgo, ?_⟩
      have hwork : s.slices[sid].atRest = false := Bool.eq_false_iff.mpr fun h => hi (((Slice.atRest_iff _).mp h).1 i)
      rw [Slice.engineActs, Bool.or_eq_false_iff] at hengine
      refine Bool.or_eq_false_iff.mpr ⟨hengine.1, ?_⟩
      exact Bool.and_eq_false_iff.mpr (.inr hwork)
    · exact whileReleased_takeCommand (g := fun _ x => (Slice.dropQuiesceJob { x with pendingQuiesce := none }).idleIfDone) hpin hpath rfl
  · intro env k x hpending hjobs hwalk
    refine ⟨fun hfree hqueue => ?_, fun hwork => ?_⟩
    · exact Slice.engineAct_join hpending hjobs hwalk hfree hqueue
    · refine (Slice.engineAct_of_quiesceJoin (Slice.completeJob_eq_none hjobs) hwalk).trans (Slice.quiesceJoin_of_work (Bool.eq_false_iff.mpr fun h => ?_))
      obtain ⟨hfree, hqueue⟩ := (Slice.atRest_iff x).mp h
      rcases hwork with ⟨i, hi⟩ | hne
      · exact hi (hfree i)
      · exact hne hqueue
  · intro sid k p ms s hpin hpath x hdir hrecords hqueue hsub hengine
    refine (whileReleased_takeCommand (g := fun _ x => { x with pendingQuiesce := some k }) hpin hpath rfl).trans (next_updSlice_congr ?_)
    exact Slice.Empty.goOn_join ⟨hdir, hrecords, hqueue, hsub⟩ hengine
  · intro sid k ks s hpin hpath q reported taken
    have hexec : exec (.quiesceCompletionReport sid) s = .next (taken.quiesceReported sid k) := by
      rw [show exec (.quiesceCompletionReport sid) s = execQuiesceCompletionReport sid s from rfl, execQuiesceCompletionReport,
        whileReleased_of_released _ _ hpin]
      simp only [hpath]
      rfl
    have hcounts (hsweeping : q.state = .sweeping) (hnumber : k = q.number) : (decide (q.state = .sweeping) && decide (k = q.number)) = true := by
      rw [decide_eq_true hsweeping, decide_eq_true hnumber]
      rfl
    refine ⟨fun hsweeping hnumber hmore => hexec.trans (congrArg _ ?_), fun hsweeping hnumber hall => hexec.trans (congrArg _ ?_), fun hother => hexec.trans (congrArg _ ?_)⟩
    · exact (if_pos (hcounts hsweeping hnumber)).trans (if_neg hmore)
    · exact (if_pos (hcounts hsweeping hnumber)).trans (if_pos hall)
    · refine if_neg fun h => ?_
      rw [Bool.and_eq_true, decide_eq_true_eq, decide_eq_true_eq] at h
      obtain ⟨hsweeping, hnumber⟩ := h
      rcases hother with hne | hne
      · exact hne hsweeping
      · exact hne hnumber

end Sys2Proof.Machine

/-!
The sweep engine at its set: which agents and lines its jobs concern, the examination of a pending line, and the start of a recall (R117, R120
to R122, R125).
-/

namespace Sys2Proof.Machine

/-! ## The agents of the jobs -/

/-- A set gathered over a list has the agents that one of the list's members adds. -/
theorem AgentSet.getLsbD_foldl_iff {α : Type} {step : AgentSet → α → AgentSet} {adds : α → Agent → Prop}
    (hstep : ∀ a j (n : Agent), (step a j).getLsbD n = true ↔ a.getLsbD n = true ∨ adds j n) (js : List α) (a : AgentSet) (n : Agent) :
    (js.foldl step a).getLsbD n = true ↔ a.getLsbD n = true ∨ ∃ j ∈ js, adds j n := by
  induction js generalizing a with
  | nil => simp
  | cons j js ih =>
    rw [List.foldl_cons, ih, hstep, List.exists_mem_cons_iff]
    exact or_assoc

theorem AgentSet.getLsbD_insert_iff (a : AgentSet) (m n : Agent) : (AgentSet.insert a m).getLsbD n = true ↔ a.getLsbD n = true ∨ n = m := by
  rw [AgentSet.getLsbD_insert, Bool.or_eq_true, decide_eq_true_eq]

theorem SweepEngine.getLsbD_drainAgents (e : SweepEngine) (n : Agent) :
    e.drainAgents.getLsbD n = true ↔ ∃ j ∈ e.jobs, j.applied = true ∧ j.kind = .drain n := by
  refine (AgentSet.getLsbD_foldl_iff (adds := fun j n => j.applied = true ∧ j.kind = .drain n) (fun a j n => ?_) e.jobs 0#8 n).trans ?_
  · obtain ⟨kind, setsLeft, inFlight, applied, late⟩ := j
    cases kind with
    | drain m =>
      cases applied with
      | true =>
        refine (AgentSet.getLsbD_insert_iff a m n).trans (or_congr_right ?_)
        simp [eq_comm]
      | false => simp
    | fence m => simp
    | quiesce k => simp
  · rw [BitVec.getLsbD_zero]
    simp

theorem SweepEngine.getLsbD_drainJobs (e : SweepEngine) (n : Agent) : e.drainJobs.getLsbD n = true ↔ ∃ j ∈ e.jobs, j.kind = .drain n := by
  refine (AgentSet.getLsbD_foldl_iff (adds := fun j n => j.kind = .drain n) (fun a j n => ?_) e.jobs 0#8 n).trans ?_
  · obtain ⟨kind, setsLeft, inFlight, applied, late⟩ := j
    cases kind with
    | drain m =>
      refine (AgentSet.getLsbD_insert_iff a m n).trans (or_congr_right ?_)
      simp [eq_comm]
    | fence m => simp
    | quiesce k => simp
  · rw [BitVec.getLsbD_zero]
    simp

theorem SweepEngine.quiesceApplied_iff (e : SweepEngine) : e.quiesceApplied = true ↔ ∃ j ∈ e.jobs, j.applied = true ∧ ∃ k, j.kind = .quiesce k := by
  rw [SweepEngine.quiesceApplied, List.any_eq_true]
  refine exists_congr fun j => and_congr_right fun _ => ?_
  cases j.kind with
  | drain n => simp
  | fence n => simp
  | quiesce k => simp

/-- The line's entry concerns an applied job: a QUIESCE job, or a DRAIN job whose agent it names (R121, R122). -/
def Slice.Concerned (x : Slice) (l : LineAddr) : Prop :=
  ∃ w e, x.entryOf l = some (w, e) ∧ ∃ j ∈ x.engine.jobs, j.applied = true
    ∧ ((∃ k, j.kind = .quiesce k) ∨ ∃ n : Agent, j.kind = .drain n ∧ e.agents.getLsbD n = true)

section
variable {env : Env} {i : RecIdx} {x : Slice} {l : LineAddr} {ls : List LineAddr} {p : Nat} {sid : SliceId} {w : WayIdx} {e : Entry}

theorem AgentSet.ne_zero_iff (a : AgentSet) : (a != 0#8) = true ↔ ∃ n : Agent, a.getLsbD n = true := by
  rw [bne_iff_ne]
  constructor
  · intro hne
    by_contra hnone
    refine hne (AgentSet.ext fun n => ?_)
    rw [BitVec.getLsbD_zero]
    exact Bool.eq_false_iff.mpr fun h => hnone ⟨n, h⟩
  · rintro ⟨n, hn⟩ rfl
    rw [BitVec.getLsbD_zero] at hn
    cases hn

theorem Slice.concerned_iff (x : Slice) (l : LineAddr) : x.concerned l = true ↔ x.Concerned l := by
  cases hentry : x.entryOf l with
  | none =>
    simp only [Slice.concerned, Slice.Concerned, hentry]
    simp
  | some found =>
    obtain ⟨w, e⟩ := found
    have hagents : ((e.agents &&& x.engine.drainAgents) != 0#8) = true ↔
        ∃ j ∈ x.engine.jobs, j.applied = true ∧ ∃ n : Agent, j.kind = .drain n ∧ e.agents.getLsbD n = true := by
      rw [AgentSet.ne_zero_iff]
      constructor
      · rintro ⟨n, hn⟩
        rw [BitVec.getLsbD_and, Bool.and_eq_true, SweepEngine.getLsbD_drainAgents] at hn
        obtain ⟨hmem, j, hj, happlied, hkind⟩ := hn
        exact ⟨j, hj, happlied, n, hkind, hmem⟩
      · rintro ⟨j, hj, happlied, n, hkind, hmem⟩
        refine ⟨n, ?_⟩
        rw [BitVec.getLsbD_and, Bool.and_eq_true, SweepEngine.getLsbD_drainAgents]
        exact ⟨hmem, j, hj, happlied, hkind⟩
    simp only [Slice.concerned, hentry]
    rw [Bool.or_eq_true, SweepEngine.quiesceApplied_iff, hagents]
    constructor
    · rintro (⟨j, hj, happlied, hkind⟩ | ⟨j, hj, happlied, hkind⟩)
      · exact ⟨w, e, hentry, j, hj, happlied, .inl hkind⟩
      · exact ⟨w, e, hentry, j, hj, happlied, .inr hkind⟩
    · rintro ⟨w', e', hentry', j, hj, happlied, hkind⟩
      rw [hentry] at hentry'
      obtain ⟨rfl, rfl⟩ : w = w' ∧ e = e' := by simpa using hentry'
      exact hkind.imp (fun hkind => ⟨j, hj, happlied, hkind⟩) fun hkind => ⟨j, hj, happlied, hkind⟩

/-! ## A way taken (R121, R165) -/

theorem Slice.applyAtWay_of_not_occupied (h : ∀ t e, (x.getSet p).ways[w] ≠ .occupied t e) : x.applyAtWay sid p w = x := by
  rw [Slice.applyAtWay]
  split
  · next t e hway => exact absurd hway (h t e)
  · rfl

theorem Slice.applyAtWay_of_held {t : BitVec 15} (hway : (x.getSet p).ways[w] = .occupied t e) (h : x.held (lineOf sid p t) = true) :
    x.applyAtWay sid p w = x := by
  rw [Slice.applyAtWay, hway]
  exact if_pos h

theorem Slice.applyAtWay_of_unheld {t : BitVec 15} (hway : (x.getSet p).ways[w] = .occupied t e) (h : x.held (lineOf sid p t) = false) :
    let edited := x.engine.fenceAgents.foldl (Slice.fenceAction sid (lineOf sid p t)) x
    x.applyAtWay sid p w = if edited.concerned (lineOf sid p t) then
      { edited with engine := { edited.engine with pendingLines := edited.engine.pendingLines ++ [lineOf sid p t] } } else edited := by
  intro edited
  rw [Slice.applyAtWay, hway]
  exact if_neg (by rw [h]; decide)

/-! ## A pending line examined (R122) -/

theorem Slice.examine_of_nil (h : x.engine.pendingLines = []) : x.examine env = some { x with engine := { x.engine with visit := .leaving } } := by
  simp only [Slice.examine, h]

theorem Slice.examine_of_eligible (h : x.engine.pendingLines = l :: ls) (hqueue : ∃ v ∈ x.waitQueue, x.held v.line = false) : x.examine env = none := by
  have helig : x.waitQueue.any x.eligible = true := by
    obtain ⟨v, hv, hheld⟩ := hqueue
    exact List.any_eq_true.mpr ⟨v, hv, by rw [Slice.eligible, hheld]; rfl⟩
  simp only [Slice.examine, h, helig, if_true]

theorem Slice.examine_of_busy (h : x.engine.pendingLines = l :: ls) (hbusy : ∀ i : RecIdx, x.records[i].phase ≠ .free) : x.examine env = none := by
  simp only [Slice.examine, h, (Slice.takeFree_none x env.sid).mpr hbusy, ite_self]

/-- A record is handed to the engine: the line is dropped, sends it back, or is recalled. -/
theorem Slice.examine_of_free (h : x.engine.pendingLines = l :: ls) (hqueue : ∀ v ∈ x.waitQueue, x.held v.line = true)
    (hfree : ∃ i : RecIdx, x.records[i].phase = .free) : ∃ (i : RecIdx) (picks : Nat), x.records[i].phase = .free ∧ x.examine env =
      if x.held l then some { x with engine := { x.engine with visit := .waitingAtSet, pendingLines := [] } }
      else if x.concerned l then some (Slice.startRecall env i l { x with picks := picks, engine := { x.engine with pendingLines := ls } })
      else some { x with engine := { x.engine with pendingLines := ls } } := by
  have helig : x.waitQueue.any x.eligible = false := List.any_eq_false.mpr fun v hv => by rw [Slice.eligible, hqueue v hv]; decide
  cases htake : x.takeFree env.sid with
  | none =>
    obtain ⟨i, hi⟩ := hfree
    exact absurd hi ((Slice.takeFree_none x env.sid).mp htake i)
  | some found =>
    obtain ⟨i, y⟩ := found
    obtain ⟨hi, picks, rfl⟩ := Slice.takeFree_some htake
    refine ⟨i, picks, hi, ?_⟩
    simp only [Slice.examine, h, helig, htake]
    rfl

/-! ## A recall starts (R125) -/

/-- A recall with the revoke set will serve the job. -/
def Job.servedBy (revoke : AgentSet) (j : Job) : Bool :=
  match j.kind with
  | .drain n => revoke.getLsbD n.val
  | .fence _ => false
  | .quiesce _ => j.applied

theorem Job.recallStarted_eq (revoke : AgentSet) (j : Job) :
    j.recallStarted revoke = { j with inFlight := if j.servedBy revoke then j.inFlight + 1 else j.inFlight } := by
  have hserved : j.recallStarted revoke = if j.servedBy revoke then { j with inFlight := j.inFlight + 1 } else j := rfl
  rw [hserved]
  cases j.servedBy revoke <;> rfl

/-- The recall's record, its probes, and the jobs that it serves. -/
theorem Slice.startRecall_of_entry (hentry : x.entryOf l = some (w, e))
    (hunfenced : ∀ n : Agent, (x.recallRecord l e).revokeSet.getLsbD n = true → x.fenced.getLsbD n = false) : x.startRecall env i l =
      ((x.countRecall (x.recallRecord l e).revokeSet).probes (x.recallRecord l e).revokeSet ⟨.revoke, handleOf env.sid i, l⟩).withRecord i
        { x.recallRecord l e with
          waits := waitsOnAgents (x.recallRecord l e).revokeSet e.role .revoke
          deadline := env.deadlineFor (x.recallRecord l e).revokeSet } := by
  have hrevokes := Slice.revokeAll_withRecord (env := env) (i := i) (v := false) (x := x.countRecall (x.recallRecord l e).revokeSet) (r := x.recallRecord l e)
    e (x.recallRecord l e).revokeSet hunfenced rfl rfl
  rw [Slice.startRecall_eq, hentry]
  exact hrevokes

end

end Sys2Proof.Machine

/-!
A set changed twice, the agents removed from one entry, and the edit of a recall at its end (R18, R19, R127, R166).
-/

namespace Sys2Proof.Machine

/-! ## Canonical tables -/

section
variable {α : Type} [DecidableEq α] {d : α}

/-- Two tables in canonical form that hold the same are the same. -/
theorem Sparse.ext {m m' : List (Nat × α)} (h : Sparse.wf d m = true) (h' : Sparse.wf d m' = true) (hget : ∀ a, Sparse.get d m a = Sparse.get d m' a) :
    m = m' := by
  induction m generalizing m' with
  | nil =>
    cases m' with
    | nil => rfl
    | cons e' m' =>
      obtain ⟨k', v'⟩ := e'
      obtain ⟨hv', -, -⟩ := (Sparse.wf_cons d k' v' m').mp h'
      exact absurd ((hget k').symm.trans rfl) (by simpa [Sparse.get] using hv')
  | cons e m ih =>
    obtain ⟨k, v⟩ := e
    obtain ⟨hv, hk, hm⟩ := (Sparse.wf_cons d k v m).mp h
    have hhead : Sparse.get d ((k, v) :: m) k = v := if_pos rfl
    cases m' with
    | nil => exact absurd (hhead.symm.trans (hget k)) hv
    | cons e' m' =>
      obtain ⟨k', v'⟩ := e'
      obtain ⟨hv', hk', hm'⟩ := (Sparse.wf_cons d k' v' m').mp h'
      have hhead' : Sparse.get d ((k', v') :: m') k' = v' := if_pos rfl
      have hbelow {a b : Nat} {u : α} {n : List (Nat × α)} (hab : a < b) (hn : ∀ e ∈ n, b < e.1) : Sparse.get d ((b, u) :: n) a = d :=
        Sparse.get_of_lt d _ a fun e he => (List.mem_cons.mp he).elim (fun h => h ▸ hab) fun h => Nat.lt_trans hab (hn e h)
      obtain rfl : k = k' := by
        rcases Nat.lt_trichotomy k k' with hlt | heq | hgt
        · exact absurd (hhead.symm.trans ((hget k).trans (hbelow hlt hk'))) hv
        · exact heq
        · exact absurd (hhead'.symm.trans ((hget k').symm.trans (hbelow hgt hk))) hv'
      obtain rfl : v = v' := hhead.symm.trans ((hget k).trans hhead')
      refine congrArg ((k, v) :: ·) (ih hm hm' fun a => ?_)
      by_cases ha : a = k
      · rw [ha, Sparse.get_of_lt d m k hk, Sparse.get_of_lt d m' k hk']
      · have htail := hget a
        rwa [Sparse.get, Sparse.get, if_neg ha, if_neg ha] at htail

theorem Sparse.put_put {m : List (Nat × α)} (h : Sparse.wf d m = true) (a : Nat) (v v' : α) :
    Sparse.put d (Sparse.put d m a v) a v' = Sparse.put d m a v' := by
  have hput := Sparse.wf_put d m a v h
  refine Sparse.ext (Sparse.wf_put d _ a v' hput) (Sparse.wf_put d m a v' h) fun b => ?_
  rw [Sparse.get_put d _ a v' b hput, Sparse.get_put d m a v b h, Sparse.get_put d m a v' b h]
  split <;> rfl

theorem Sparse.put_get_self {m : List (Nat × α)} (h : Sparse.wf d m = true) (a : Nat) : Sparse.put d m a (Sparse.get d m a) = m := by
  refine Sparse.ext (Sparse.wf_put d m a _ h) h fun b => ?_
  rw [Sparse.get_put d m a _ b h]
  split
  · next hb => rw [hb]
  · rfl

end

/-! ## One way changed twice -/

section
variable {x : Slice} {sid : SliceId} {l : LineAddr} {w : WayIdx} {e e' : Entry} {p : Nat} {a b : Way}

theorem Slice.putSet_putSet (hwf : Sparse.wf DirSet.empty x.dir = true) (d d' : DirSet) : (x.putSet p d).putSet p d' = x.putSet p d' :=
  congrArg (fun dir => { x with dir := dir }) (Sparse.put_put hwf p d d')

theorem Slice.putSet_getSet (hwf : Sparse.wf DirSet.empty x.dir = true) : x.putSet p (x.getSet p) = x :=
  congrArg (fun dir => { x with dir := dir }) (Sparse.put_get_self hwf p)

theorem Slice.getSet_withWay (hwf : Sparse.wf DirSet.empty x.dir = true) :
    (x.withWay p w a).getSet p = ⟨(x.getSet p).ways.set w a, (x.getSet p).recency⟩ := by
  rw [Slice.withWay, Slice.getSet_putSet hwf, if_pos rfl]

theorem Slice.withWay_withWay (hwf : Sparse.wf DirSet.empty x.dir = true) : (x.withWay p w a).withWay p w b = x.withWay p w b := by
  rw [Slice.withWay, Slice.getSet_withWay hwf, Vector.set_set]
  exact Slice.putSet_putSet hwf _ _

theorem Slice.withWay_withWayOut (hwf : Sparse.wf DirSet.empty x.dir = true) : (x.withWay p w a).withWayOut p w b = x.withWayOut p w b := by
  rw [Slice.withWayOut, Slice.getSet_withWay hwf, Vector.set_set]
  exact Slice.putSet_putSet hwf _ _

theorem Slice.withWay_self (hwf : Sparse.wf DirSet.empty x.dir = true) (h : (x.getSet p).ways[w] = a) : x.withWay p w a = x := by
  subst h
  have hset : (x.getSet p).ways.set w (x.getSet p).ways[w] = (x.getSet p).ways := Vector.set_getElem_self _
  rw [Slice.withWay, hset]
  exact Slice.putSet_getSet hwf

/-- The entry of the line after its own way has been changed (R7). -/
theorem Slice.entryOf_withWay (hx : x.directoryConsistent sid) (h : x.entryOf l = some (w, e)) :
    (x.withWay (setOf l) w (.occupied (tagOf l) e')).entryOf l = some (w, e') := by
  obtain ⟨hwf, honeway, -⟩ := hx
  have hways (v : WayIdx) : ((x.withWay (setOf l) w (.occupied (tagOf l) e')).getSet (setOf l)).ways[v] =
      if v = w then .occupied (tagOf l) e' else (x.getSet (setOf l)).ways[v] := by
    rw [Slice.getSet_withWay hwf]
    exact getElem_set_ways _ _ _ _
  have hsome : (x.withWay (setOf l) w (.occupied (tagOf l) e')).entryOf l ≠ none :=
    Slice.entryOf_ne_none.mpr ⟨w, e', by rw [hways, if_pos rfl]⟩
  obtain ⟨⟨v, e''⟩, hv⟩ := Option.ne_none_iff_exists'.mp hsome
  have hway := Slice.entryOf_some hv
  rw [hways] at hway
  split at hway
  · next hvw =>
    obtain ⟨-, rfl⟩ := by simpa using hway
    rw [hv, hvw]
  · next hvw => exact absurd (honeway _ v w _ (.inl ⟨e'', hway⟩) (.inl ⟨e, Slice.entryOf_some h⟩)) hvw

/-- A freed line has no entry (R7, R15). -/
theorem Slice.entryOf_freeEntry (hx : x.directoryConsistent sid) (h : x.entryOf l = some (w, e)) : (x.freeEntry sid l).entryOf l = none := by
  obtain ⟨hwf, honeway, -⟩ := hx
  have hfreed : ∀ t g, x.freedWay sid l ≠ .occupied t g := by
    intro t g
    rw [Slice.freedWay]
    split
    · exact nofun
    · dsimp only
      split
      · exact nofun
      · split <;> exact nofun
  by_contra hentry
  obtain ⟨v, g, hv⟩ := Slice.entryOf_ne_none.mp hentry
  rw [Slice.freeEntry_of_entry h, Slice.withWayOut, Slice.getSet_putSet hwf, if_pos rfl, getElem_set_ways] at hv
  split at hv
  · exact hfreed _ _ hv
  · next hvw => exact hvw (honeway _ v w _ (.inl ⟨g, hv⟩) (.inl ⟨e, Slice.entryOf_some h⟩))

/-- A line is freed as it was held, whatever its entry was rewritten to. -/
theorem Slice.freeEntry_withWay (hx : x.directoryConsistent sid) (h : x.entryOf l = some (w, e)) :
    (x.withWay (setOf l) w (.occupied (tagOf l) e')).freeEntry sid l = x.freeEntry sid l := by
  rw [Slice.freeEntry_of_entry (Slice.entryOf_withWay hx h), Slice.freeEntry_of_entry h]
  exact Slice.withWay_withWayOut hx.1

/-! ## Agents removed one after the other (R18) -/

theorem AgentSet.foldl_erase_toList (a c : AgentSet) : (AgentSet.toList c).foldl AgentSet.erase a = a &&& ~~~c := by
  have hbits (ns : List Agent) (a : AgentSet) (m : Agent) : (ns.foldl AgentSet.erase a).getLsbD m = (a.getLsbD m && !decide (m ∈ ns)) := by
    induction ns generalizing a with
    | nil => simp
    | cons n ns ih =>
      rw [List.foldl_cons, ih, AgentSet.getLsbD_erase, Bool.and_assoc, ← Bool.not_or]
      refine congrArg (a.getLsbD m && !·) ?_
      rw [← Bool.decide_or]
      exact decide_eq_decide.mpr List.mem_cons.symm
  refine AgentSet.ext fun m => ?_
  have hmem : decide (m ∈ AgentSet.toList c) = c.getLsbD m := by
    rw [Bool.eq_iff_iff, decide_eq_true_eq, AgentSet.mem_toList]
  rw [hbits, hmem, BitVec.getLsbD_and, BitVec.getLsbD_not, decide_eq_true m.isLt, Bool.true_and]

/-- The slice with a line's entry SHARED by the agents that are left, or freed where none is. -/
def Slice.leaves (sid : SliceId) (l : LineAddr) (w : WayIdx) (left : AgentSet) (x : Slice) : Slice :=
  if left = 0#8 then x.freeEntry sid l else x.withWay (setOf l) w (.occupied (tagOf l) (.shared left))

theorem Slice.leaves_zero : x.leaves sid l w 0#8 = x.freeEntry sid l := if_pos rfl

theorem Slice.leaves_of_ne {left : AgentSet} (h : left ≠ 0#8) : x.leaves sid l w left = x.withWay (setOf l) w (.occupied (tagOf l) (.shared left)) := if_neg h

/-- One agent fewer. -/
theorem Slice.removeAgent_leaves (hx : x.directoryConsistent sid) (h : x.entryOf l = some (w, e)) (left : AgentSet) (n : Agent) :
    (x.leaves sid l w left).removeAgent sid l n = x.leaves sid l w (AgentSet.erase left n) := by
  by_cases hleft : left = 0#8
  · have hzero : AgentSet.erase left n = 0#8 := by
      rw [hleft]
      exact AgentSet.ext fun m => by rw [AgentSet.getLsbD_erase, BitVec.getLsbD_zero, Bool.false_and]
    rw [hzero, hleft, Slice.leaves_zero, Slice.removeAgent_of_none (Slice.entryOf_freeEntry hx h)]
  · have hshared : (x.leaves sid l w left).entryOf l = some (w, .shared left) := by
      rw [Slice.leaves_of_ne hleft]
      exact Slice.entryOf_withWay hx h
    rw [Slice.removeAgent_of_shared hshared, Slice.leaves_of_ne hleft, Slice.freeEntry_withWay hx h, Slice.withWay_withWay hx.1]
    by_cases hn : left.getLsbD n = true
    · rw [if_pos hn]
      rfl
    · have hsame : AgentSet.erase left n = left := AgentSet.erase_of_not_mem (Bool.eq_false_iff.mpr hn)
      rw [if_neg hn, hsame, Slice.leaves_of_ne hleft]

theorem Slice.foldl_removeAgent_leaves (hx : x.directoryConsistent sid) (h : x.entryOf l = some (w, e)) (left c : AgentSet) :
    (AgentSet.toList c).foldl (fun y n => Slice.removeAgent y sid l n) (x.leaves sid l w left) = x.leaves sid l w (left &&& ~~~c) := by
  rw [← AgentSet.foldl_erase_toList]
  generalize AgentSet.toList c = ns
  induction ns generalizing left with
  | nil => rfl
  | cons n ns ih => rw [List.foldl_cons, List.foldl_cons, Slice.removeAgent_leaves hx h, ih]

theorem Slice.foldl_removeAgent_of_none (h : x.entryOf l = none) (ns : List Agent) : ns.foldl (fun y n => Slice.removeAgent y sid l n) x = x :=
  List.foldl_fixed' (fun _ => Slice.removeAgent_of_none h) ns

/-- An owner is removed where it is one of the agents. -/
theorem Slice.foldl_removeAgent_of_owned {b : Agent} (hx : x.directoryConsistent sid) (h : x.entryOf l = some (w, .owned b)) (c : AgentSet) :
    (AgentSet.toList c).foldl (fun y n => Slice.removeAgent y sid l n) x = if c.getLsbD b then x.freeEntry sid l else x := by
  have hlist (ns : List Agent) : ns.foldl (fun y n => Slice.removeAgent y sid l n) x = if b ∈ ns then x.freeEntry sid l else x := by
    induction ns with
    | nil => rfl
    | cons n ns ih =>
      rw [List.foldl_cons, Slice.removeAgent_of_owned h]
      by_cases hb : b = n
      · rw [if_pos hb, if_pos (List.mem_cons.mpr (.inl hb)), Slice.foldl_removeAgent_of_none (Slice.entryOf_freeEntry hx h)]
      · rw [if_neg hb, ih]
        simp [hb]
  rw [hlist]
  simp only [AgentSet.mem_toList]

end

/-! ## The edit of a recall (R127, R166) -/

section
variable {env : Env} {i : RecIdx} {x : Slice} {w : WayIdx}

/-- What the revoked agents' removal leaves is edited by the fenced-agent set (R166, log 15). -/
def Slice.fencedLeave (env : Env) (l : LineAddr) (y : Slice) : Slice :=
  match y.entryOf l with
  | some (_, .owned b) => if AgentSet.mem y.fenced b then (y.order (.poisonWrite l) .engine).freeEntry env.sid l else y
  | some (_, .shared _) => (AgentSet.toList y.fenced).foldl (fun y n => y.removeAgent env.sid l n) y
  | none => y

theorem Slice.recallEdit_eq : x.recallEdit env i =
    Slice.fencedLeave env x.records[i].line
      ((AgentSet.toList x.records[i].revokeSet).foldl (fun y n => Slice.removeAgent y env.sid x.records[i].line n) x) := rfl

theorem Slice.fencedLeave_of_none {l : LineAddr} (h : x.entryOf l = none) : x.fencedLeave env l = x := by
  simp only [Slice.fencedLeave, h]

theorem Slice.fencedLeave_of_shared {l : LineAddr} {a : AgentSet} (h : x.entryOf l = some (w, .shared a)) :
    x.fencedLeave env l = (AgentSet.toList x.fenced).foldl (fun y n => Slice.removeAgent y env.sid l n) x := by
  simp only [Slice.fencedLeave, h]

theorem Slice.fencedLeave_of_owned {l : LineAddr} {b : Agent} (h : x.entryOf l = some (w, .owned b)) :
    x.fencedLeave env l = if x.fenced.getLsbD b then (x.orders (.poisonWrite l) .engine).freeEntry env.sid l else x := by
  simp only [Slice.fencedLeave, h]
  rfl

theorem Slice.recallEdit_of_none (h : x.entryOf x.records[i].line = none) : x.recallEdit env i = x := by
  rw [Slice.recallEdit_eq, Slice.foldl_removeAgent_of_none h, Slice.fencedLeave_of_none h]

theorem Slice.recallEdit_of_shared {a : AgentSet} (hx : x.directoryConsistent env.sid) (h : x.entryOf x.records[i].line = some (w, .shared a)) :
    x.recallEdit env i = x.leaves env.sid x.records[i].line w (a &&& ~~~x.records[i].revokeSet &&& ~~~x.fenced)
      ∧ x.leaves env.sid x.records[i].line w a = x := by
  have hconsistent := hx
  obtain ⟨-, -, -, -, -, hsharers, -⟩ := hconsistent
  have hne : a ≠ 0#8 := hsharers _ w _ a (Slice.entryOf_some h)
  have hself : x.leaves env.sid x.records[i].line w a = x := by
    rw [Slice.leaves_of_ne hne]
    exact Slice.withWay_self hx.1 (Slice.entryOf_some h)
  refine ⟨?_, hself⟩
  have hrevoked : (AgentSet.toList x.records[i].revokeSet).foldl (fun y n => Slice.removeAgent y env.sid x.records[i].line n) x =
      x.leaves env.sid x.records[i].line w (a &&& ~~~x.records[i].revokeSet) := by
    refine Eq.trans ?_ (Slice.foldl_removeAgent_leaves hx h a x.records[i].revokeSet)
    rw [hself]
  rw [Slice.recallEdit_eq, hrevoked]
  generalize a &&& ~~~x.records[i].revokeSet = left
  by_cases hleft : left = 0#8
  · subst hleft
    rw [Slice.leaves_zero, Slice.fencedLeave_of_none (Slice.entryOf_freeEntry hx h), BitVec.zero_and, Slice.leaves_zero]
  · have hshared : (x.leaves env.sid x.records[i].line w left).entryOf x.records[i].line = some (w, .shared left) := by
      rw [Slice.leaves_of_ne hleft]
      exact Slice.entryOf_withWay hx h
    have hfenced : (x.leaves env.sid x.records[i].line w left).fenced = x.fenced := by
      rw [Slice.leaves_of_ne hleft]
      rfl
    rw [Slice.fencedLeave_of_shared hshared, hfenced, Slice.foldl_removeAgent_leaves hx h]

theorem Slice.recallEdit_of_owned {b : Agent} (hx : x.directoryConsistent env.sid) (h : x.entryOf x.records[i].line = some (w, .owned b)) :
    x.recallEdit env i = if x.records[i].revokeSet.getLsbD b then x.freeEntry env.sid x.records[i].line
      else if x.fenced.getLsbD b then (x.orders (.poisonWrite x.records[i].line) .engine).freeEntry env.sid x.records[i].line else x := by
  rw [Slice.recallEdit_eq, Slice.foldl_removeAgent_of_owned hx h]
  split
  · exact Slice.fencedLeave_of_none (Slice.entryOf_freeEntry hx h)
  · exact Slice.fencedLeave_of_owned h

end

end Sys2Proof.Machine

/-!
The sweep engine's walk (R117 to R127, R165, R166, R173).
-/

namespace Sys2Proof.Machine

section
variable {env : Env} {i : RecIdx} {x : Slice} {l : LineAddr} {w : WayIdx} {e : Entry} {sid : SliceId} {s : State}

/-- A set is not settled where a way of it is RESERVED, or a line of it is held by a record that is no recall of this visit (R120). -/
theorem Slice.settledSet_eq_false {p : Nat} (x : Slice) : x.settledSet p = false ↔
    (∃ (w : WayIdx) (t : BitVec 15) (h : Handle), (x.getSet p).ways[w] = .reserved t h)
      ∨ ∃ (i : RecIdx) (l : LineAddr), x.records[i].holds l ∧ setOf l = p ∧ ¬(x.records[i].kind = .recall ∧ x.records[i].thisVisit = true) := by
  rw [← Bool.not_eq_true, Slice.settledSet_iff, not_and_or]
  push Not
  rfl

/-- An engine that travelled waits at a set that is not settled. -/
theorem Slice.still.arrive (hx : x.still env) (hset : x.settledSet x.engine.position = false) :
    ({ x with engine := { x.engine with visit := .waitingAtSet } } : Slice).still env := by
  obtain ⟨hev, harbiter, hgo, hengine⟩ := (Slice.still_parts env x).mp hx
  rw [Slice.engineActs, Bool.or_eq_false_iff, Bool.or_eq_false_iff] at hengine
  obtain ⟨⟨hjobs, -⟩, hjoin⟩ := hengine
  exact (Slice.still_parts env _).mpr ⟨hev, harbiter, hgo, Bool.or_eq_false_iff.mpr ⟨Bool.or_eq_false_iff.mpr ⟨hjobs, hset⟩, hjoin⟩⟩

theorem exec_sweepArrival (hpin : s.resetPin = .released) (htravels : s.slices[sid].engine.visit = .travelling) :
    exec (.sweepArrival sid) s = .next (s.updSlice sid fun x =>
      Slice.goOn (s.env sid) false { x with engine := { x.engine with visit := .waitingAtSet } }) := by
  have harrives : s.slices[sid].arriveAtSet = { s.slices[sid] with engine := { s.slices[sid].engine with visit := .waitingAtSet } } := if_pos htravels
  have hcongr := next_updSlice_congr (f := fun x => Slice.goOn (s.env sid) false x.arriveAtSet)
    (g := fun x => Slice.goOn (s.env sid) false { x with engine := { x.engine with visit := .waitingAtSet } })
    (congrArg (Slice.goOn (s.env sid) false) harrives)
  rw [show exec (.sweepArrival sid) s = execSweepArrival sid s from rfl, execSweepArrival, whileReleased_of_released _ _ hpin]
  exact hcongr

end

/-- Settles O40: the engine's walk, act by act. -/
theorem theEngineWalks : Obligations.TheEngineWalks := by
  unfold Obligations.TheEngineWalks
  intro unsettled concerned
  have hunsettled (x : Slice) : x.settledSet x.engine.position = false ↔ unsettled x := Slice.settledSet_eq_false x
  have hconcerned (x : Slice) (l : LineAddr) : x.concerned l = true ↔ concerned x l := Slice.concerned_iff x l
  refine ⟨?_, ?_, ?_, ?_, ?_, ?_, ?_, ?_⟩
  · intro sid s hpin htravels
    have hexec := exec_sweepArrival hpin htravels
    exact ⟨hexec, fun hstill hset => hexec.trans (next_updSlice_congr (Slice.goOn_of_still _ _ _ (hstill.arrive ((hunsettled _).mpr hset))))⟩
  · intro env x hleaving
    have hwalk := Slice.walkAct_of_leaving (env := env) hleaving
    refine ⟨fun hops => hwalk.trans (if_neg fun h => ?_), fun hops => ⟨x.leaveSet, hwalk.trans (if_pos ((Slice.noEngineOps_iff x).mpr hops)), rfl, rfl,
      fun hmore => ?_, fun hnone => ?_, rfl, rfl, rfl, rfl⟩⟩
    · obtain ⟨o, ho, howner⟩ := hops
      exact (Slice.noEngineOps_iff x).mp h o ho howner
    · obtain ⟨j, hj, hwalking⟩ := hmore
      exact if_pos (List.any_eq_true.mpr ⟨j, hj, decide_eq_true hwalking⟩)
    · refine if_neg fun h => ?_
      obtain ⟨j, hj, hwalking⟩ := List.any_eq_true.mp h
      exact absurd (hnone j hj) (Nat.ne_of_gt (of_decide_eq_true hwalking))
  · intro env x hvisit marked applied
    refine ⟨fun hset => Slice.walkAct_of_unsettled hvisit ((hunsettled x).mpr hset), fun hset => ?_⟩
    have hsettled : x.settledSet x.engine.position = true := by
      rw [← Bool.not_eq_false]
      exact fun h => hset ((hunsettled x).mp h)
    have happlied : (List.finRange 8).foldl (Slice.applyAtWay env.sid x.engine.position) x.marked = applied := rfl
    rw [Slice.walkAct_of_settled hvisit hsettled, Slice.applyJobs_eq, happlied]
    rfl
  · intro sid p w x
    refine ⟨Slice.applyAtWay_of_not_occupied, ?_⟩
    intro t e hway l fences edited
    refine ⟨Slice.applyAtWay_of_held hway, fun hheld hline => ?_, fun hheld hline => ?_⟩
    · exact (Slice.applyAtWay_of_unheld hway hheld).trans (if_pos ((hconcerned edited l).mpr hline))
    · exact (Slice.applyAtWay_of_unheld hway hheld).trans (if_neg fun h => hline ((hconcerned edited l).mp h))
  · intro env x hvisit
    have hwalk := Slice.walkAct_of_examining (env := env) hvisit
    refine ⟨fun hnil => hwalk.trans (Slice.examine_of_nil hnil), fun l ls hpending => ⟨fun hnone => hwalk.trans ?_, fun hqueue hfree => ?_⟩⟩
    · rcases hnone with hqueue | hbusy
      · exact Slice.examine_of_eligible hpending hqueue
      · exact Slice.examine_of_busy hpending hbusy
    · obtain ⟨i, picks, hi, hexamine⟩ := Slice.examine_of_free (env := env) hpending hqueue hfree
      have hact := hwalk.trans hexamine
      refine ⟨fun hheld => hact.trans (if_pos hheld), fun hheld hline => ?_, fun hheld hline => ⟨i, picks, hi, ?_⟩⟩
      · exact hact.trans ((if_neg (by rw [hheld]; decide)).trans (if_neg fun h => hline ((hconcerned x l).mp h)))
      · exact hact.trans ((if_neg (by rw [hheld]; decide)).trans (if_pos ((hconcerned x l).mpr hline)))
  · intro env i l w e quiesce drains active x hentry hquiesce hdrains hactive revoke hunfenced
    have happlied : x.engine.quiesceApplied = quiesce := Bool.eq_iff_iff.mpr ((SweepEngine.quiesceApplied_iff _).trans hquiesce.symm)
    have hdrainAgents : x.engine.drainAgents = drains := AgentSet.ext fun n =>
      Bool.eq_iff_iff.mpr ((SweepEngine.getLsbD_drainAgents _ n).trans (hdrains n).symm)
    have hdrainJobs : x.engine.drainJobs = active := AgentSet.ext fun n =>
      Bool.eq_iff_iff.mpr ((SweepEngine.getLsbD_drainJobs _ n).trans (hactive n).symm)
    have hrecord : x.recallRecord l e = { Record.started .sweep .recall l none false with
        revokeSet := revoke, servesDrain := revoke &&& active, servesQuiesce := quiesce, thisVisit := true } := by
      simp only [Slice.recallRecord, happlied, hdrainAgents, hdrainJobs]
      rfl
    have hserved : (fun j : Job => { j with inFlight := if j.servedBy revoke then j.inFlight + 1 else j.inFlight }) = Job.recallStarted revoke :=
      funext fun j => (Job.recallStarted_eq revoke j).symm
    have hunfenced' (n : Agent) (hn : (x.recallRecord l e).revokeSet.getLsbD n = true) : x.fenced.getLsbD n = false :=
      hunfenced n (by rwa [hrecord] at hn)
    rw [Slice.startRecall_of_entry hentry hunfenced', hrecord]
    refine Eq.trans (b := Slice.withRecord ((x.countRecall revoke).probes revoke ⟨.revoke, handleOf env.sid i, l⟩) i _) rfl ?_
    rw [Slice.countRecall, ← hserved]
    rfl
  · intro env i x r l hphase hfin hkind
    have hprogress := Slice.progress_recall (env := env) hphase hfin hkind
    refine ⟨fun hwaits => hprogress.trans (if_pos ?_), fun hawaits hops => hprogress.trans (if_neg ?_), fun hx => ⟨Slice.recallEdit_of_none, ?_, fun w b hentry => ?_⟩⟩
    · rcases hwaits with hawaits | hops
      · rw [show x.records[i].awaits = true from hawaits, Bool.true_or]
      · rw [hops, Bool.not_false, Bool.or_true]
    · rw [show x.records[i].awaits = false from hawaits, hops]
      decide
    · intro w a hentry left
      obtain ⟨hedit, hself⟩ := Slice.recallEdit_of_shared hx hentry
      have hedit' : x.recallEdit env i = x.leaves env.sid l w left := hedit
      refine ⟨fun hsame => ?_, fun hless hne => ?_, fun hzero => ?_⟩
      · rw [hedit', hsame]
        exact hself
      · rw [hedit']
        exact Slice.leaves_of_ne hne
      · rw [hedit', hzero]
        exact Slice.leaves_zero
    · have hedit := Slice.recallEdit_of_owned (i := i) hx hentry
      refine ⟨fun hrevoked => hedit.trans (if_pos hrevoked), fun hkept hfenced => ?_, fun hkept hfenced => ?_⟩
      · exact hedit.trans ((if_neg (by rw [show x.records[i].revokeSet.getLsbD b = false from hkept]; decide)).trans (if_pos hfenced))
      · exact hedit.trans ((if_neg (by rw [show x.records[i].revokeSet.getLsbD b = false from hkept]; decide)).trans (if_neg (by rw [hfenced]; decide)))
  · intro env pre post j x hjobs hsets hflight hpre left
    have htake := Slice.completeJob_of hjobs hsets hflight hpre
    refine ⟨fun n hkind => Slice.engineAct_of_completeJob ?_, fun n hkind => Slice.engineAct_of_completeJob ?_, fun k hkind => Slice.engineAct_of_completeJob ?_⟩
    · simp only [Slice.completeJob, htake, hkind]
      rfl
    · simp only [Slice.completeJob, htake, hkind]
      rfl
    · simp only [Slice.completeJob, htake, hkind]
      rfl

end Sys2Proof.Machine
